-- ==== Sys2Proof/Word.lean ====
section
/-! DEFINITION. The word types of OOKDEC (00_scope.md R8, R9). -/

namespace Sys2Proof

/-- A data byte, and a register address (R8: register addresses are 8 bits). -/
abbrev Byte := BitVec 8

/-- The run-length counter, the nominal-width and gap registers, the frame bit counter (R8: 16 bits). -/
abbrev Half := BitVec 16

/-- Register-bus data, sample words, output beats, counters (R8: 32 bits). -/
abbrev Word := BitVec 32

end Sys2Proof
end

