-- ==== Sys2Proof/Config.lean ====
section
/-! DEFINITION. What is fixed for one block (the synthesis-time parameters, R7), and the input signals of a cycle
(R70 to R73), with the host's free inputs (R22, 92_eei_decisions.md D40). -/

namespace Sys2Proof

/-- The synthesis-time parameters (00_scope.md R7). "The model takes them as arguments": a State carries them and no
operation writes them (log entry 1). -/
structure Params where
  /-- `MAX_BYTES`, the longest `data` a packet can carry. -/
  maxBytes : Nat
  /-- `OUTQ_DEPTH`, the capacity of the output queue in packets, the head included. -/
  outqDepth : Nat
deriving DecidableEq, Repr, Inhabited

/-- The defaults of R7. -/
def Params.default : Params := { maxBytes := 32, outqDepth := 2 }

/-- The legal ranges of R7: MAX_BYTES 1 to 255, OUTQ_DEPTH 1 to 15. -/
def Params.legal (p : Params) : Bool :=
  decide (1 ≤ p.maxBytes) && decide (p.maxBytes ≤ 255) && decide (1 ≤ p.outqDepth) && decide (p.outqDepth ≤ 15)

/-- The input signals of one clock cycle: the reset pin (R70), the register bus (R71), the sample port (R72) and the
output port's `m_ready` (R73). -/
structure Inputs where
  rst : Bool
  regSel : Bool
  regWr : Bool
  regAddr : Byte
  regWdata : Word
  sValid : Bool
  sData : Word
  sLast : Bool
  mReady : Bool
deriving DecidableEq, Repr, Inhabited

/-- "In every cycle the inputs an action does not name are 0" (R82). -/
def Inputs.idle : Inputs :=
  { rst := false, regSel := false, regWr := false, regAddr := 0#8, regWdata := 0#32,
    sValid := false, sData := 0#32, sLast := false, mReady := false }

/-- One entry of the host's schedule: the inputs of a cycle and whether the host holds them until the offered sample is
accepted (R82 `SMP`, R257; log entry 15). -/
structure Drive where
  inputs : Inputs
  hold : Bool
deriving DecidableEq, Repr, Inhabited

/-- FREE VALUE (log entry 2): the inputs of the n-th cycle for which nothing stands in the host's schedule. "The host's
inputs in each cycle are free inputs of the step, under no law" (D40), so nothing constrains it. -/
opaque Config.hostInputs : Nat → Inputs

end Sys2Proof
end

