-- ==== Sys2Proof/Syntax.lean ====
section
/-! DEFINITION. The operations of OOKDEC, one constructor per row of spec/opcode_table.json in its order (30_encoding.md
R79). OOKDEC has no instruction words: its "instructions" are the operations a host performs in one cycle (R2). -/

namespace Sys2Proof

inductive Instr where
  /-- RD_CTRL, BUS W=0, address 0x00 (R183). -/
  | rdCtrl
  /-- WR_CTRL, BUS W=1, address 0x00 (R175); `w` is `reg_wdata`. -/
  | wrCtrl (w : Word)
  /-- RD_STATUS, BUS W=0, address 0x04 (R184). -/
  | rdStatus
  /-- WR_STATUS, BUS W=1, address 0x04 (R182); `w` is `reg_wdata`. -/
  | wrStatus (w : Word)
  /-- RD_CFG, BUS W=0, address 0x08 (R185). -/
  | rdCfg
  /-- WR_CFG, BUS W=1, address 0x08 (R186); `w` is `reg_wdata`. -/
  | wrCfg (w : Word)
  /-- RD_TOL, BUS W=0, address 0x0C (R187). -/
  | rdTol
  /-- WR_TOL, BUS W=1, address 0x0C (R188); `w` is `reg_wdata`. -/
  | wrTol (w : Word)
  /-- RD_SHORT_NOM, BUS W=0, address 0x10 (R189). -/
  | rdShortNom
  /-- WR_SHORT_NOM, BUS W=1, address 0x10 (R190); `w` is `reg_wdata`. -/
  | wrShortNom (w : Word)
  /-- RD_LONG_NOM, BUS W=0, address 0x14 (R191). -/
  | rdLongNom
  /-- WR_LONG_NOM, BUS W=1, address 0x14 (R192); `w` is `reg_wdata`. -/
  | wrLongNom (w : Word)
  /-- RD_GAP_MIN, BUS W=0, address 0x18 (R193). -/
  | rdGapMin
  /-- WR_GAP_MIN, BUS W=1, address 0x18 (R194); `w` is `reg_wdata`. -/
  | wrGapMin (w : Word)
  /-- RD_THRESH, BUS W=0, address 0x1C (R195). -/
  | rdThresh
  /-- WR_THRESH, BUS W=1, address 0x1C (R196); `w` is `reg_wdata`. -/
  | wrThresh (w : Word)
  /-- RD_PREAMBLE, BUS W=0, address 0x20 (R197). -/
  | rdPreamble
  /-- WR_PREAMBLE, BUS W=1, address 0x20 (R198); `w` is `reg_wdata`. -/
  | wrPreamble (w : Word)
  /-- RD_PKT_CNT, BUS W=0, address 0x24 (R201). -/
  | rdPktCnt
  /-- RD_BAD_CNT, BUS W=0, address 0x28 (R202). -/
  | rdBadCnt
  /-- RD_SYNCLOSS_CNT, BUS W=0, address 0x2C (R203). -/
  | rdSynclossCnt
  /-- RD_DISCARD_CNT, BUS W=0, address 0x30 (R204). -/
  | rdDiscardCnt
  /-- RD_ID, BUS W=0, address 0x34 (R205). -/
  | rdId
  /-- WR_RO, BUS W=1, address 0x24: a write to the read-only register PKT_CNT (R206). -/
  | wrRoPktCnt (w : Word)
  /-- WR_RO, BUS W=1, address 0x28: a write to the read-only register BAD_CNT (R206). -/
  | wrRoBadCnt (w : Word)
  /-- WR_RO, BUS W=1, address 0x2C: a write to the read-only register SYNCLOSS_CNT (R206). -/
  | wrRoSynclossCnt (w : Word)
  /-- WR_RO, BUS W=1, address 0x30: a write to the read-only register DISCARD_CNT (R206). -/
  | wrRoDiscardCnt (w : Word)
  /-- WR_RO, BUS W=1, address 0x34: a write to the read-only register ID (R206). -/
  | wrRoId (w : Word)
  /-- RD_RSVD, BUS W=0, any other address (R207). -/
  | rdRsvd (addr : Byte)
  /-- WR_RSVD, BUS W=1, any other address (R208). -/
  | wrRsvd (addr : Byte) (w : Word)
  /-- SAMPLE, PORT s_hs=1, s_last_eff=0 (R108); `x` is `s_data`. -/
  | sample (x : Word)
  /-- SAMPLE_LAST, PORT s_hs=1, s_last_eff=1 (R136 after R108). -/
  | sampleLast (x : Word)
  /-- BEAT, PORT m_hs=1 (R166). -/
  | beat
  /-- RESET, PIN rst=1 (R250). -/
  | reset
deriving DecidableEq, Repr

end Sys2Proof
end

