-- ==== Sys2Proof/WellFormed.lean ====
section
/-! DEFINITION. Which operations are well formed: RD_RSVD and WR_RSVD stand only for the reserved addresses, those that no
other row of the same W value matches (30_encoding.md R79, 10_state.md R44). Every other operand is free: every
`reg_wdata` and every sample word is legal (R74, R78). -/

namespace Sys2Proof

/-- The reserved addresses: "A >= 0x38 or A[1:0] != 00" (R207). -/
def reservedAddr (a : Byte) : Bool := decide (0x38 ≤ a.toNat) || decide (a.toNat % 4 ≠ 0)

/-- The operands of the operation are ones its encoding can carry. -/
def Instr.wellFormed : Instr → Bool
  | .rdRsvd a => reservedAddr a
  | .wrRsvd a _ => reservedAddr a
  | .rdCtrl | .wrCtrl _ | .rdStatus | .wrStatus _ | .rdCfg | .wrCfg _ | .rdTol | .wrTol _ => true
  | .rdShortNom | .wrShortNom _ | .rdLongNom | .wrLongNom _ | .rdGapMin | .wrGapMin _ => true
  | .rdThresh | .wrThresh _ | .rdPreamble | .wrPreamble _ => true
  | .rdPktCnt | .rdBadCnt | .rdSynclossCnt | .rdDiscardCnt | .rdId => true
  | .wrRoPktCnt _ | .wrRoBadCnt _ | .wrRoSynclossCnt _ | .wrRoDiscardCnt _ | .wrRoId _ => true
  | .sample _ | .sampleLast _ | .beat | .reset => true

end Sys2Proof
end

