-- ==== Sys2Proof/Decode.lean ====
section
/-! DEFINITION. Decoding and encoding of the operations (30_encoding.md R74, R75, R79, R80): the BUS word
`{reg_wr, reg_addr}`, the PORT word `{s_hs, s_last_eff, m_hs}`, the PIN word `rst`. The three formats come in on signals of
their own, so a decoder is told which format it reads. The byte layout of a word with its data operand is the model's own (log
entry 4). -/

namespace Sys2Proof

/-- The formats of R79. -/
inductive Format where
  | bus
  | port
  | pin
deriving DecidableEq, Repr

/-- Why bytes are not the word of an operation. -/
inductive Reject where
  /-- The bytes end inside the word or its data operand. -/
  | truncated
  /-- A bit above the word's width (9, 3 or 1) is set. -/
  | unusedBits
  /-- The PORT word 0b010, which "cannot occur, because `s_last_eff` implies `s_hs`" (R75). -/
  | impossiblePort
deriving DecidableEq, Repr

/-! ## Decoding -/

/-- The BUS rows with W = 0 (R79). -/
def busReads : List (Byte × Instr) := [
    (0x00#8, .rdCtrl), (0x04#8, .rdStatus), (0x08#8, .rdCfg),
    (0x0C#8, .rdTol), (0x10#8, .rdShortNom), (0x14#8, .rdLongNom),
    (0x18#8, .rdGapMin), (0x1C#8, .rdThresh), (0x20#8, .rdPreamble),
    (0x24#8, .rdPktCnt), (0x28#8, .rdBadCnt), (0x2C#8, .rdSynclossCnt),
    (0x30#8, .rdDiscardCnt), (0x34#8, .rdId)]

/-- The BUS rows with W = 1 (R79), WR_RO's five addresses among them; `w` is `reg_wdata`. -/
def busWrites (w : Word) : List (Byte × Instr) := [
    (0x00#8, .wrCtrl w), (0x04#8, .wrStatus w), (0x08#8, .wrCfg w),
    (0x0C#8, .wrTol w), (0x10#8, .wrShortNom w), (0x14#8, .wrLongNom w),
    (0x18#8, .wrGapMin w), (0x1C#8, .wrThresh w), (0x20#8, .wrPreamble w),
    (0x24#8, .wrRoPktCnt w), (0x28#8, .wrRoBadCnt w), (0x2C#8, .wrRoSynclossCnt w),
    (0x30#8, .wrRoDiscardCnt w), (0x34#8, .wrRoId w)]

/-- Format BUS (R74, R79): bit 8 is W, bits 7:0 the address. "A decoder selects the BUS row whose address matches exactly.
RD_RSVD and WR_RSVD apply only when no other row of the same W value matches." -/
def decodeBus (op : BitVec 9) (wdata : Word) : Instr :=
  let addr := op.extractLsb' 0 8
  if op.getLsbD 8 then ((busWrites wdata).lookup addr).getD (.wrRsvd addr wdata)
  else (busReads.lookup addr).getD (.rdRsvd addr)

/-- Format PORT (R75): bit 2 a sample is accepted, bit 1 it is the last of its stream, bit 0 a beat transfers; bits 2 and 0
are independent. `x` is `s_data`. -/
def decodePort (pt : BitVec 3) (x : Word) : Except Reject (List Instr) :=
  if pt = 0b010#3 then .error .impossiblePort
  else
    .ok ((if pt.getLsbD 2 then [if pt.getLsbD 1 then .sampleLast x else .sample x] else []) ++
      (if pt.getLsbD 0 then [.beat] else []))

/-- Format PIN (R70): the reset pin. -/
def decodePin (rst : BitVec 1) : List Instr := if rst.getLsbD 0 then [.reset] else []

/-- A word from its bytes, the first the least significant. -/
def wordOfBytes (b0 b1 b2 b3 : Byte) : Word := b3 ++ b2 ++ b1 ++ b0

/-- The operations that the bytes of one word stand for, with the bytes that follow it. BUS: the 9-bit word in two bytes,
then `reg_wdata` in four; PORT: the 3-bit word in one byte, then `s_data` in four; PIN: one byte (log entry 4). -/
def decode : Format → List Byte → Except Reject (List Instr × List Byte)
  | .bus, b0 :: b1 :: d0 :: d1 :: d2 :: d3 :: rest =>
    if b1.toNat < 2 then .ok ([decodeBus ((b1 ++ b0).extractLsb' 0 9) (wordOfBytes d0 d1 d2 d3)], rest)
    else .error .unusedBits
  | .port, b0 :: d0 :: d1 :: d2 :: d3 :: rest =>
    if b0.toNat < 8 then (decodePort (b0.extractLsb' 0 3) (wordOfBytes d0 d1 d2 d3)).map (·, rest)
    else .error .unusedBits
  | .pin, b0 :: rest =>
    if b0.toNat < 2 then .ok (decodePin (b0.extractLsb' 0 1), rest) else .error .unusedBits
  | _, _ => .error .truncated

/-! ## Encoding -/

/-- The word of an operation in its format, with its data operand. -/
inductive OpWord where
  | bus (op : BitVec 9) (wdata : Word)
  | port (pt : BitVec 3) (sdata : Word)
  | pin (rst : BitVec 1)
deriving DecidableEq, Repr

/-- `op = {reg_wr, reg_addr[7:0]}` (R74). -/
def busOp (wr : Bool) (addr : Byte) : BitVec 9 := BitVec.ofBool wr ++ addr

/-- The word of each operation, from the operation map R79. A read has no data operand: `reg_wdata` is 0 (R82). -/
def Instr.opWord : Instr → OpWord
  | .rdCtrl => .bus (busOp false 0x00#8) 0#32
  | .wrCtrl w => .bus (busOp true 0x00#8) w
  | .rdStatus => .bus (busOp false 0x04#8) 0#32
  | .wrStatus w => .bus (busOp true 0x04#8) w
  | .rdCfg => .bus (busOp false 0x08#8) 0#32
  | .wrCfg w => .bus (busOp true 0x08#8) w
  | .rdTol => .bus (busOp false 0x0C#8) 0#32
  | .wrTol w => .bus (busOp true 0x0C#8) w
  | .rdShortNom => .bus (busOp false 0x10#8) 0#32
  | .wrShortNom w => .bus (busOp true 0x10#8) w
  | .rdLongNom => .bus (busOp false 0x14#8) 0#32
  | .wrLongNom w => .bus (busOp true 0x14#8) w
  | .rdGapMin => .bus (busOp false 0x18#8) 0#32
  | .wrGapMin w => .bus (busOp true 0x18#8) w
  | .rdThresh => .bus (busOp false 0x1C#8) 0#32
  | .wrThresh w => .bus (busOp true 0x1C#8) w
  | .rdPreamble => .bus (busOp false 0x20#8) 0#32
  | .wrPreamble w => .bus (busOp true 0x20#8) w
  | .rdPktCnt => .bus (busOp false 0x24#8) 0#32
  | .rdBadCnt => .bus (busOp false 0x28#8) 0#32
  | .rdSynclossCnt => .bus (busOp false 0x2C#8) 0#32
  | .rdDiscardCnt => .bus (busOp false 0x30#8) 0#32
  | .rdId => .bus (busOp false 0x34#8) 0#32
  | .wrRoPktCnt w => .bus (busOp true 0x24#8) w
  | .wrRoBadCnt w => .bus (busOp true 0x28#8) w
  | .wrRoSynclossCnt w => .bus (busOp true 0x2C#8) w
  | .wrRoDiscardCnt w => .bus (busOp true 0x30#8) w
  | .wrRoId w => .bus (busOp true 0x34#8) w
  | .rdRsvd a => .bus (busOp false a) 0#32
  | .wrRsvd a w => .bus (busOp true a) w
  | .sample x => .port 0b100#3 x
  | .sampleLast x => .port 0b110#3 x
  | .beat => .port 0b001#3 0#32
  | .reset => .pin 1#1

/-- The format of a word. -/
def OpWord.format : OpWord → Format
  | .bus _ _ => .bus
  | .port _ _ => .port
  | .pin _ => .pin

/-- A word's bytes, the first the least significant. -/
def bytesOfWord (w : Word) : List Byte :=
  [w.extractLsb' 0 8, w.extractLsb' 8 8, w.extractLsb' 16 8, w.extractLsb' 24 8]

/-- The bytes of a word with its data operand, as `decode` reads them (log entry 4). -/
def OpWord.bytes : OpWord → List Byte
  | .bus op wdata => op.extractLsb' 0 8 :: BitVec.setWidth 8 (op.extractLsb' 8 1) :: bytesOfWord wdata
  | .port pt sdata => BitVec.setWidth 8 pt :: bytesOfWord sdata
  | .pin rst => [BitVec.setWidth 8 rst]

/-- The words of an operation: its format and its bytes. -/
def encode (i : Instr) : Format × List Byte := (i.opWord.format, i.opWord.bytes)

/-- The input signals that perform the operation alone in its cycle: every signal it does not name is 0 (R82). -/
def Instr.inputs (i : Instr) : Inputs :=
  match i.opWord with
  | .bus op wdata =>
    { Inputs.idle with regSel := true, regWr := op.getLsbD 8, regAddr := op.extractLsb' 0 8, regWdata := wdata }
  | .port pt sdata =>
    { Inputs.idle with sValid := pt.getLsbD 2, sLast := pt.getLsbD 1, sData := sdata, mReady := pt.getLsbD 0 }
  | .pin rst => { Inputs.idle with rst := rst.getLsbD 0 }

/-! ## The host's opcode-table words -/

/-- The format of a table word of `nbits` bits: PIN has 1 bit, PORT 3, BUS 9, each perhaps rounded up to whole bytes, and
PORT 40 with its data operand. Eight bits are read as PORT (log entry 5). -/
def formatOfBits (nbits : Nat) : Format :=
  if nbits ≤ 1 then .pin else if nbits ≤ 8 ∨ nbits = 40 then .port else .bus

/-- How many bytes the words of a format have, the data operand included (log entry 4). -/
def Format.byteLength : Format → Nat
  | .bus => 6
  | .port => 5
  | .pin => 1

/-- The bytes of a table word, the least significant first; the bits the table does not give are zeros. -/
def tableBytes (fmt : Format) (w : Nat) : List Byte :=
  (List.range fmt.byteLength).map fun k => BitVec.ofNat 8 (w / 256 ^ k)

/-- The operation the decoder reads from a table word, bits numbered as spec/opcode_table.json numbers them. Of the two a
PORT word may stand for, the sample comes first, as in the table. -/
def decodeTableWord (nbits w : Nat) : Option Instr :=
  match decode (formatOfBits nbits) (tableBytes (formatOfBits nbits) w) with
  | .ok (i :: _, _) => some i
  | .ok ([], _) => none
  | .error _ => none

end Sys2Proof
end

