-- ==== Sys2Proof/Machine/State.lean ====
section
/-! DEFINITION. The state of OOKDEC as plain data (10_state.md), its reset value (R47), and the reasons a step can stop. -/

namespace Sys2Proof.Machine

/-- The decoder phases (R24). Values 5 to 7 are never written and have no representation (U4, log entry 10). -/
inductive Phase where
  | searching
  | syncing
  | collecting
  | validating
  | emit
deriving DecidableEq, Repr

/-- The event codes 0 to 9 of R29 and R220, in order. Codes 10 to 15 have no representation (U5, log entry 10). -/
inductive Event where
  | none
  | syncLossHigh
  | syncLossLow
  | preambleMismatch
  | incompleteGap
  | incompleteStreamEnd
  | overflow
  | checkMismatch
  | configError
  | packetOk
deriving DecidableEq, Repr

/-- CFG.CHECK_MODE, 0 to 3 in order (R33). -/
inductive CheckMode where
  | none
  | sum8
  | xor8
  | crc8
deriving DecidableEq, Repr

/-- A packet record `{data, bit_count, valid_check}` (R12). -/
structure Packet where
  data : List Byte
  bitCount : Half
  validCheck : Bool
deriving DecidableEq, Repr

/-- The decoder state, what `DecoderReset` resets (R252): the line tracker (R23), the phase (R24), the frame state
(R25, `nbytes` of R26) and the pending packet (R27). -/
structure Decoder where
  /-- The level of the most recently processed sample (R23). -/
  lvl : Bool
  /-- How many samples, ending with that one, had its level; saturates at 0xFFFF (R23, R102). -/
  run : Half
  phase : Phase
  /-- Preamble bits matched so far (R25). -/
  preCnt : BitVec 5
  /-- Bits consumed by the open frame, preamble included (R25). -/
  bitTotal : Half
  /-- The byte being assembled (R25). -/
  cur : Byte
  /-- How many bits `cur` holds (R25). -/
  nbits : BitVec 4
  /-- How many completed bytes the frame buffer holds (R26). -/
  nbytes : Byte
  /-- The completed packet that found the queue full; `none` when no packet is held (R27, log entry 9). -/
  pend : Option Packet
deriving DecidableEq, Repr

/-- The reset value of the decoder state (R23 to R27, R252). -/
def Decoder.reset : Decoder :=
  { lvl := false, run := 0xFFFF#16, phase := .searching, preCnt := 0#5, bitTotal := 0#16, cur := 0#8,
    nbits := 0#4, nbytes := 0#8, pend := none }

/-- The configuration registers (R30): CFG's three fields (R33), TOL (R34), SHORT_NOM and LONG_NOM (R35), GAP_MIN
(R36), THRESH (R37), PREAMBLE (R38). Reserved bits are not stored: they read 0 and ignore writes (U7). -/
structure ConfigRegs where
  bitpol : Bool
  checkMode : CheckMode
  preLen : BitVec 5
  tol : Word
  shortNom : Half
  longNom : Half
  gapMin : Half
  thresh : Word
  preamble : Half
deriving DecidableEq, Repr

/-- The reset configuration (R33 to R38). -/
def ConfigRegs.reset : ConfigRegs :=
  { bitpol := false, checkMode := .none, preLen := 0#5, tol := 0x00004000#32, shortNom := 0x0004#16,
    longNom := 0x0008#16, gapMin := 0x0010#16, thresh := 0x3F000000#32, preamble := 0x0000#16 }

/-- The event counters PKT_CNT, BAD_CNT, SYNCLOSS_CNT, DISCARD_CNT (R39 to R42). -/
structure Counters where
  pkt : Word
  bad : Word
  syncloss : Word
  discard : Word
deriving DecidableEq, Repr

/-- The counters at reset and after CTRL.CLRCNT (R229). -/
def Counters.zero : Counters := { pkt := 0#32, bad := 0#32, syncloss := 0#32, discard := 0#32 }

/-- The output signals of one cycle: `s_ready` (R72), `m_valid`, `m_data`, `m_hdr`, `m_last` (R73), `reg_rdata` (R71). -/
structure Outputs where
  sReady : Bool
  mValid : Bool
  mData : Word
  mHdr : Bool
  mLast : Bool
  regRdata : Word
deriving DecidableEq, Repr

/-- All outputs 0. -/
def Outputs.zero : Outputs :=
  { sReady := false, mValid := false, mData := 0#32, mHdr := false, mLast := false, regRdata := 0#32 }

/-- The state of one OOKDEC instance (R20), with four fields of the model's own: `params`, `out`, `host`, `drawn`. -/
structure State where
  /-- The model's own: the synthesis-time parameters (R7); no operation writes them (log entry 1). -/
  params : Params
  /-- CTRL.EN (R31). -/
  en : Bool
  /-- STATUS.CFG_ERR (R32). -/
  cfgErr : Bool
  /-- STATUS.WERR (R32). -/
  werr : Bool
  /-- The most recent event (R29). -/
  lastEvt : Event
  cfg : ConfigRegs
  cnt : Counters
  dec : Decoder
  /-- The frame buffer, MAX_BYTES bytes (R26). -/
  buf : List Byte
  /-- The output queue, head first (R28). -/
  queue : List Packet
  /-- The index of the head packet's next beat (R28). -/
  beat : Byte
  /-- The model's own: the output signals of the cycle last run (log entry 6). -/
  out : Outputs
  /-- The model's own: the host's drives for the coming cycles, the next one first (log entry 2). -/
  host : List Drive
  /-- The model's own: how many cycles took free inputs (log entry 2). -/
  drawn : Nat
deriving DecidableEq, Repr

/-- An instance with the given parameters right after reset (R47, R250). The frame buffer's bytes, unspecified there, are 0
(U1, log entry 8); nothing stands in the host's schedule. -/
def State.resetOf (params : Params) : State :=
  { params := params, en := false, cfgErr := false, werr := false, lastEvt := .none, cfg := .reset, cnt := .zero,
    dec := .reset, buf := List.replicate params.maxBytes 0#8, queue := [], beat := 0#8, out := .zero, host := [],
    drawn := 0 }

/-- The machine right after reset (R47), with the default parameters of R7. -/
def State.reset : State := State.resetOf Params.default

/-- No fault: OOKDEC has no traps and no error response (R221, R227; 93_implementation_defined.md: no entry has treatment
`fault`). Nothing raises one. -/
inductive Fault
deriving DecidableEq, Repr

/-- Why a step can be refused. -/
inductive Refusal where
  /-- Raised by `exec` for an operation that has no meaning yet; safe. No arm of `exec` raises it. -/
  | notModelled (mnemonic : String)
  /-- Raised by `cycle` for the PORT word 0b010, which "cannot occur" (R75; U11 treatment `refuse`); safe. No state and no
  inputs reach it, since the word is formed with `s_last_eff = s_hs and s_last` (log entry 18). -/
  | impossiblePort
deriving DecidableEq, Repr

end Sys2Proof.Machine
end

