-- ==== Sys2Proof/Machine/Operands.lean ====
section
/-! DEFINITION. Operand forms: the codes of enumerated fields, the binary32 comparison and the slicer (R100, R101), the run
counter (R102), the tolerance windows and classes (R104 to R106), the fields of written words (R186 to R198), the file bytes of a
sample (R52). -/

namespace Sys2Proof.Machine

/-! ## Codes -/

/-- The 3-bit encoding of the phase (R24). -/
def Phase.code : Phase → BitVec 3
  | .searching => 0#3
  | .syncing => 1#3
  | .collecting => 2#3
  | .validating => 3#3
  | .emit => 4#3

/-- The 4-bit event code (R29, R220). -/
def Event.code : Event → BitVec 4
  | .none => 0#4
  | .syncLossHigh => 1#4
  | .syncLossLow => 2#4
  | .preambleMismatch => 3#4
  | .incompleteGap => 4#4
  | .incompleteStreamEnd => 5#4
  | .overflow => 6#4
  | .checkMismatch => 7#4
  | .configError => 8#4
  | .packetOk => 9#4

/-- The 2-bit encoding of CHECK_MODE (R33). -/
def CheckMode.code : CheckMode → BitVec 2
  | .none => 0#2
  | .sum8 => 1#2
  | .xor8 => 2#2
  | .crc8 => 3#2

/-- CHECK_MODE from its two bits: "every 2-bit value selects a mode" (R150). -/
def CheckMode.ofCode (b : BitVec 2) : CheckMode :=
  if b = 0#2 then .none else if b = 1#2 then .sum8 else if b = 2#2 then .xor8 else .crc8

/-! ## Slicer -/

/-- `isNaN` (R11): exponent 0xFF and a non-zero fraction. -/
def isNaN (x : Word) : Bool := x.extractLsb' 23 8 == 0xFF#8 && x.extractLsb' 0 23 != 0#23

/-- `canon` (R100): -0 is +0. -/
def canon (z : Word) : Word := if z = 0x80000000#32 then 0x00000000#32 else z

/-- `key` (R100): an unsigned word that orders as the binary32 value does. -/
def key (z : Word) : Word :=
  let c := canon z
  if c.getLsbD 31 then 0xFFFFFFFF#32 - c else c + 0x80000000#32

/-- `gtF` (R100): binary32 "greater than" on bit patterns that are not NaNs. -/
def gtF (x y : Word) : Bool := (key y).ult (key x)

/-- `Slice` (R101): the level of a sample against a threshold. -/
def slice (thresh x : Word) : Bool := !isNaN x && !isNaN thresh && gtF x thresh

/-! ## Run length, windows, classes -/

/-- `sat16` (R9). -/
def sat16 (n : Nat) : Half := BitVec.ofNat 16 (min n 0xFFFF)

/-- The run after a sample (R102): 1 on an edge, else one more, saturating. -/
def nextRun (edge : Bool) (run : Half) : Half := if edge then 1#16 else sat16 (run.toNat + 1)

/-- `InWin` (R104): the closed tolerance window around `nominal`, in exact integer arithmetic. -/
def inWin (tol : Word) (len nominal : Half) : Bool :=
  decide ((nominal.toNat : Int) * (65536 - (tol.toNat : Int)) ≤ (len.toNat : Int) * 65536) &&
  decide ((len.toNat : Int) * 65536 ≤ (nominal.toNat : Int) * (65536 + (tol.toNat : Int)))

/-- The class of an interval (R105). -/
inductive IntervalClass where
  | short
  | long
  | none
deriving DecidableEq, Repr

/-- `Class` (R105): SHORT is tested first. -/
def classify (c : ConfigRegs) (len : Half) : IntervalClass :=
  if inWin c.tol len c.shortNom then .short
  else if inWin c.tol len c.longNom then .long
  else .none

/-- `BitOf` (R106): LONG is 1, SHORT is 0, inverted by BITPOL. -/
def bitOf (c : ConfigRegs) (k : IntervalClass) : Bool := (k == .long) ^^ c.bitpol

/-- Preamble bit `k`, the first being 0 (R38, R127): `PREAMBLE[PRE_LEN-1-k]`. -/
def preambleBit (c : ConfigRegs) (k : BitVec 5) : Bool := c.preamble.getLsbD (c.preLen.toNat - 1 - k.toNat)

/-- `GapHit` (R107), from the sample's level, the run after it, and the level and run before it. -/
def gapHit (c : ConfigRegs) (v : Bool) (runNew : Half) (oldLvl : Bool) (oldRun : Half) : Bool :=
  !v && runNew == c.gapMin && (v != oldLvl || decide (oldRun.toNat < 0xFFFF))

/-! ## Fields of a written word -/

/-- PRE_LEN of a written CFG: "min(w[12:8], 16)" (R186). -/
def legalPreLen (w : Word) : BitVec 5 :=
  let f := w.extractLsb' 8 5
  if f.toNat ≤ 16 then f else 16#5

/-- `Legal_CFG` (R186). -/
def legalCfg (w : Word) (c : ConfigRegs) : ConfigRegs :=
  { c with bitpol := w.getLsbD 0, checkMode := CheckMode.ofCode (w.extractLsb' 1 2), preLen := legalPreLen w }

/-- `w[15:0]`, the field of SHORT_NOM (R190), LONG_NOM (R192) and PREAMBLE (R198). -/
def lowHalf (w : Word) : Half := w.extractLsb' 0 16

/-- `Legal_GAP_MIN` (R194): a written 0 is stored as 1. -/
def legalGapMin (w : Word) : Half := if lowHalf w = 0#16 then 1#16 else lowHalf w

/-! ## Samples of a file -/

/-- The sample word of four file bytes in file order (R52): `{b3, b2, b1, b0}`. -/
def sampleOfFile (b0 b1 b2 b3 : Byte) : Word := wordOfBytes b0 b1 b2 b3

end Sys2Proof.Machine
end

