-- ==== Sys2Proof/Machine/Flags.lean ====
section
/-! DEFINITION. Flag computations: `valid_check` by check mode (R150 to R154), the legal tolerance behind CFG_ERR (R176),
OUTQ_FULL (R32), the port handshakes (R72, R73, R75), and the words a register read returns (R183 to R207). -/

namespace Sys2Proof.Machine

/-! ## valid_check -/

/-- The 8-bit sum of bytes (R152). -/
def sum8 (d : List Byte) : Byte := d.foldl (· + ·) 0#8

/-- The XOR of bytes (R153). -/
def xor8 (d : List Byte) : Byte := d.foldl (· ^^^ ·) 0#8

/-- One bit step of the CRC (R154): polynomial 0x07, most significant bit first. -/
def crc8Bit (c : Byte) : Byte := if c.getLsbD 7 then (c <<< 1) ^^^ 0x07#8 else c <<< 1

/-- One byte of the CRC (R154): eight bit steps. -/
def crc8Byte (c y : Byte) : Byte :=
  crc8Bit (crc8Bit (crc8Bit (crc8Bit (crc8Bit (crc8Bit (crc8Bit (crc8Bit (c ^^^ y))))))))

/-- `Crc8` (R154): initial value 0, no reflection, no final XOR. -/
def crc8 (d : List Byte) : Byte := d.foldl crc8Byte 0#8

/-- The byte `d[n-1]`, the trailer of R155. A frame has at least one byte (R150; log entry 14). -/
def trailer (d : List Byte) : Byte := d.getLastD 0#8

/-- `CheckNone` (R151). -/
def checkNone (_d : List Byte) : Bool := true

/-- `CheckSum8` (R152). -/
def checkSum8 (d : List Byte) : Bool := sum8 d.dropLast == trailer d

/-- `CheckXor8` (R153). -/
def checkXor8 (d : List Byte) : Bool := xor8 d.dropLast == trailer d

/-- `CheckCrc8` (R154). -/
def checkCrc8 (d : List Byte) : Bool := crc8 d.dropLast == trailer d

/-- `Check` (R150): the validator dispatch. -/
def validCheck (m : CheckMode) (d : List Byte) : Bool :=
  match m with
  | .none => checkNone d
  | .sum8 => checkSum8 d
  | .xor8 => checkXor8 d
  | .crc8 => checkCrc8 d

/-! ## Configuration and queue flags -/

/-- A legal tolerance (R34, R176): 0 < TOL < 0x10000. -/
def tolLegal (tol : Word) : Bool := decide (0 < tol.toNat) && decide (tol.toNat < 0x10000)

/-- OUTQ_FULL (R32): the queue holds OUTQ_DEPTH packets. -/
def outqFull (s : State) : Bool := s.queue.length == s.params.outqDepth

/-- There is room for one more packet: `|queue| < OUTQ_DEPTH` (R160, R162). -/
def outqRoom (s : State) : Bool := decide (s.queue.length < s.params.outqDepth)

/-! ## Ports -/

/-- `s_ready` (R72). -/
def sReady (s : State) : Bool := s.en && s.dec.phase != .emit

/-- `m_valid` (R73). -/
def mValid (s : State) : Bool := !s.queue.isEmpty

/-- The header beat of a packet (R76). -/
def headerWord (p : Packet) : Word :=
  BitVec.ofNat 8 p.data.length ++ 0#7 ++ BitVec.ofBool p.validCheck ++ p.bitCount

/-- `BeatWord` (R76, R77): beat 0 is the header, beat `k` the data byte `k-1` in bits 7:0. -/
def beatWord (p : Packet) (k : Nat) : Word :=
  match k with
  | 0 => headerWord p
  | j + 1 => BitVec.setWidth 32 (p.data.getD j 0#8)

/-- The output signals that depend only on the state at the start of the cycle (R72, R73); `reg_rdata` is 0 unless the
cycle reads (R71). -/
def stateOutputs (s : State) : Outputs :=
  match s.queue with
  | [] => { Outputs.zero with sReady := sReady s }
  | p :: _ =>
    { sReady := sReady s, mValid := true, mData := beatWord p s.beat.toNat, mHdr := s.beat == 0#8,
      mLast := s.beat.toNat == p.data.length, regRdata := 0#32 }

/-- The PORT word of a cycle, `{s_hs, s_last_eff, m_hs}` (R75). -/
def portWord (s : State) (p : Inputs) : BitVec 3 :=
  let sHs := p.sValid && sReady s
  BitVec.ofBool sHs ++ BitVec.ofBool (sHs && p.sLast) ++ BitVec.ofBool (mValid s && p.mReady)

/-! ## Words of register reads -/

/-- CTRL as read (R183): SRST and CLRCNT read 0. -/
def ctrlWord (s : State) : Word := BitVec.setWidth 32 (BitVec.ofBool s.en)

/-- STATUS as read (R184). -/
def statusWord (s : State) : Word :=
  0#12 ++ s.lastEvt.code ++ 0#3 ++ BitVec.ofBool (outqFull s) ++ BitVec.ofNat 4 s.queue.length ++ 0#2 ++
    BitVec.ofBool s.dec.lvl ++ BitVec.ofBool s.werr ++ BitVec.ofBool s.cfgErr ++ s.dec.phase.code

/-- CFG as read (R185). -/
def cfgWord (s : State) : Word :=
  0#19 ++ s.cfg.preLen ++ 0#5 ++ s.cfg.checkMode.code ++ BitVec.ofBool s.cfg.bitpol

/-- A 16-bit register as read: `zext_32` (R189, R191, R193, R197). -/
def zext32 (h : Half) : Word := BitVec.setWidth 32 h

/-- ID (R43, R205). -/
def idValue : Word := 0x4F4F4B01#32

end Sys2Proof.Machine
end

