-- ==== Sys2Proof/Machine/Ops.lean ====
section
/-! DEFINITION. The shared operations on the state: recording events (R132, R160, R220), the queue (R160 to R162, R166),
the resets (R250, R252), the control operations (R176, R177, R180), the configuration-write template (R181), the read
template (R71), and running one operation after another. OOKDEC takes no exceptions (R227): `abort` is the local recovery that
stands in a trap's place. -/

namespace Sys2Proof.Machine

/-! ## Sequencing -/

/-- Go on with `k` from a next state; a fault or a refusal stops. -/
def andThen (o : Host.Outcome State Fault Refusal) (k : State → Host.Outcome State Fault Refusal) :
    Host.Outcome State Fault Refusal :=
  match o with
  | .next s => k s
  | .fault f => .fault f
  | .refused r => .refused r

/-- Do something only under a condition. -/
def onlyIf (c : Bool) (f : State → State) (s : State) : State := if c then f s else s

/-! ## Events -/

/-- The events that are synchronization losses, codes 1 and 2 (R41, R132). -/
def isSyncLoss (e : Event) : Bool := e == .syncLossHigh || e == .syncLossLow

/-- `Abort` (R132): discard the open frame, count it, record the event. The frame state is left as it is. -/
def abort (e : Event) (s : State) : State :=
  { s with
    dec := { s.dec with phase := .searching }
    cnt := { s.cnt with
      discard := s.cnt.discard + 1#32
      syncloss := if isSyncLoss e then s.cnt.syncloss + 1#32 else s.cnt.syncloss }
    lastEvt := e }

/-! ## The output queue -/

/-- `Push` (R160): the packet enters at the tail, is counted, and its event is recorded. -/
def push (p : Packet) (s : State) : State :=
  { s with
    queue := s.queue ++ [p]
    cnt := { s.cnt with
      pkt := s.cnt.pkt + 1#32
      bad := if p.validCheck then s.cnt.bad else s.cnt.bad + 1#32 }
    lastEvt := if p.validCheck then .packetOk else .checkMismatch }

/-- Set the phase. -/
def setPhase (ph : Phase) (s : State) : State := { s with dec := { s.dec with phase := ph } }

/-- Set the line tracker (R23). -/
def setLine (lvl : Bool) (run : Half) (s : State) : State := { s with dec := { s.dec with lvl := lvl, run := run } }

/-- `Emit` (R160, R161): push if there is room, else hold the packet in EMIT. -/
def emitPacket (p : Packet) (s : State) : State :=
  if outqRoom s then setPhase .searching (push p s)
  else { s with dec := { s.dec with phase := .emit, pend := some p } }

/-- `EmitRetry` (R162): push the pending packet if there is room. A state in EMIT holds a packet (R27); one that holds
none, which no run reaches, is left as it is (log entry 9). -/
def emitRetry (s : State) : State :=
  match s.dec.pend with
  | some p =>
    if outqRoom s then push p { s with dec := { s.dec with phase := .searching, pend := none } } else s
  | none => s

/-- `BeatStep` (R166): after the last beat the head is popped, else the beat index advances. With an empty queue
`m_valid = 0` and nothing happens. -/
def beatStep (s : State) : State :=
  match s.queue with
  | [] => s
  | p :: rest =>
    if s.beat.toNat = p.data.length then { s with queue := rest, beat := 0#8 }
    else { s with beat := s.beat + 1#8 }

/-! ## Resets -/

/-- `DecoderReset` (R252). -/
def decoderReset (s : State) : State := { s with dec := .reset }

/-- `ClearCounters` (R180). -/
def clearCounters (s : State) : State := { s with cnt := .zero }

/-- `ResetAll` (R250): every state element at its reset value. The parameters, the host's schedule and the signals of the
cycle are not state of the block (log entries 1, 2, 6). -/
def resetAll (s : State) : State :=
  { State.resetOf s.params with host := s.host, drawn := s.drawn, out := s.out }

/-! ## Control -/

/-- `EnableCheck` (R176): the ConfigurationError check. -/
def enableCheck (s : State) : State :=
  if tolLegal s.cfg.tol then { s with en := true, cfgErr := false }
  else { s with cfgErr := true, lastEvt := .configError }

/-- `Disable` (R177). -/
def disable (s : State) : State := decoderReset { s with en := false }

/-- The configuration-write template (R30, R181): blocked with WERR while CTRL.EN = 1. -/
def configWrite (upd : ConfigRegs → ConfigRegs) (s : State) : State :=
  if s.en then { s with werr := true } else { s with cfg := upd s.cfg }

/-- The read template (R71): the register's value on `reg_rdata`, no side effect. -/
def readReg (v : Word) (s : State) : State := { s with out := { s.out with regRdata := v } }

end Sys2Proof.Machine
end

