-- ==== Sys2Proof/Machine/Emitter.lean ====
section
/-! DEFINITION. The output port's operation (43_emitter.md), and the sequence of beats of a packet (R164). -/

namespace Sys2Proof.Machine

/-- BEAT (R166). "`m_ready = 1` while `m_valid = 0` does nothing". -/
def execBeat (s : State) : Host.Outcome State Fault Refusal := .next (beatStep s)

/-- The beat words of a packet in the order they leave (R164, R165): the header, then the data bytes. -/
def packetBeats (p : Packet) : List Word := (List.range (p.data.length + 1)).map (beatWord p)

end Sys2Proof.Machine
end

