-- ==== Sys2Proof/Machine/RegisterOps.lean ====
section
/-! DEFINITION. The register operations (44_register_ops.md): one meaning per row of the operation map. A read returns the
state's registers on `reg_rdata`; in a cycle it runs first (R200 step 1), a write last (step 5). -/

namespace Sys2Proof.Machine

/-! ## Reads -/

/-- RD_CTRL (R183). -/
def execRdCtrl (s : State) : Host.Outcome State Fault Refusal := .next (readReg (ctrlWord s) s)

/-- RD_STATUS (R184). -/
def execRdStatus (s : State) : Host.Outcome State Fault Refusal := .next (readReg (statusWord s) s)

/-- RD_CFG (R185). -/
def execRdCfg (s : State) : Host.Outcome State Fault Refusal := .next (readReg (cfgWord s) s)

/-- RD_TOL (R187). -/
def execRdTol (s : State) : Host.Outcome State Fault Refusal := .next (readReg s.cfg.tol s)

/-- RD_SHORT_NOM (R189). -/
def execRdShortNom (s : State) : Host.Outcome State Fault Refusal := .next (readReg (zext32 s.cfg.shortNom) s)

/-- RD_LONG_NOM (R191). -/
def execRdLongNom (s : State) : Host.Outcome State Fault Refusal := .next (readReg (zext32 s.cfg.longNom) s)

/-- RD_GAP_MIN (R193). -/
def execRdGapMin (s : State) : Host.Outcome State Fault Refusal := .next (readReg (zext32 s.cfg.gapMin) s)

/-- RD_THRESH (R195). -/
def execRdThresh (s : State) : Host.Outcome State Fault Refusal := .next (readReg s.cfg.thresh s)

/-- RD_PREAMBLE (R197). -/
def execRdPreamble (s : State) : Host.Outcome State Fault Refusal := .next (readReg (zext32 s.cfg.preamble) s)

/-- RD_PKT_CNT (R201). -/
def execRdPktCnt (s : State) : Host.Outcome State Fault Refusal := .next (readReg s.cnt.pkt s)

/-- RD_BAD_CNT (R202). -/
def execRdBadCnt (s : State) : Host.Outcome State Fault Refusal := .next (readReg s.cnt.bad s)

/-- RD_SYNCLOSS_CNT (R203). -/
def execRdSynclossCnt (s : State) : Host.Outcome State Fault Refusal := .next (readReg s.cnt.syncloss s)

/-- RD_DISCARD_CNT (R204). -/
def execRdDiscardCnt (s : State) : Host.Outcome State Fault Refusal := .next (readReg s.cnt.discard s)

/-- RD_ID (R205). -/
def execRdId (s : State) : Host.Outcome State Fault Refusal := .next (readReg idValue s)

/-- RD_RSVD (R207): a reserved address reads 0, whichever it is. -/
def execRdRsvd (_addr : Byte) (s : State) : Host.Outcome State Fault Refusal := .next (readReg 0#32 s)

/-! ## Control and status -/

/-- The EN part of WR_CTRL: the enable check (R176), the disable (R177), or no change (R178). -/
def writeEn (req : Bool) (s : State) : State :=
  if req && !s.en then enableCheck s else if !req && s.en then disable s else s

/-- WR_CTRL (R175): EN request `w[0]`, soft reset `w[1]` (R179), counter clear `w[2]` (R180); `w[31:3]` is ignored. -/
def execWrCtrl (w : Word) (s : State) : Host.Outcome State Fault Refusal :=
  let s1 := writeEn (w.getLsbD 0) s
  let s2 := if w.getLsbD 1 then decoderReset s1 else s1
  .next (if w.getLsbD 2 then clearCounters s2 else s2)

/-- WR_STATUS (R182): writing 1 to bit 4 clears WERR. -/
def execWrStatus (w : Word) (s : State) : Host.Outcome State Fault Refusal :=
  .next (if w.getLsbD 4 then { s with werr := false } else s)

/-! ## Configuration writes (R181) -/

/-- WR_CFG (R186). -/
def execWrCfg (w : Word) (s : State) : Host.Outcome State Fault Refusal :=
  .next (configWrite (legalCfg w) s)

/-- WR_TOL (R188). -/
def execWrTol (w : Word) (s : State) : Host.Outcome State Fault Refusal :=
  .next (configWrite (fun c => { c with tol := w }) s)

/-- WR_SHORT_NOM (R190). -/
def execWrShortNom (w : Word) (s : State) : Host.Outcome State Fault Refusal :=
  .next (configWrite (fun c => { c with shortNom := lowHalf w }) s)

/-- WR_LONG_NOM (R192). -/
def execWrLongNom (w : Word) (s : State) : Host.Outcome State Fault Refusal :=
  .next (configWrite (fun c => { c with longNom := lowHalf w }) s)

/-- WR_GAP_MIN (R194). -/
def execWrGapMin (w : Word) (s : State) : Host.Outcome State Fault Refusal :=
  .next (configWrite (fun c => { c with gapMin := legalGapMin w }) s)

/-- WR_THRESH (R196). -/
def execWrThresh (w : Word) (s : State) : Host.Outcome State Fault Refusal :=
  .next (configWrite (fun c => { c with thresh := w }) s)

/-- WR_PREAMBLE (R198). -/
def execWrPreamble (w : Word) (s : State) : Host.Outcome State Fault Refusal :=
  .next (configWrite (fun c => { c with preamble := lowHalf w }) s)

/-! ## Read-only and reserved registers -/

/-- WR_RO to PKT_CNT (R206): "It has no effect: the register is unchanged and no flag is set." -/
def execWrRoPktCnt (_w : Word) (s : State) : Host.Outcome State Fault Refusal := .next s

/-- WR_RO to BAD_CNT (R206): "It has no effect: the register is unchanged and no flag is set." -/
def execWrRoBadCnt (_w : Word) (s : State) : Host.Outcome State Fault Refusal := .next s

/-- WR_RO to SYNCLOSS_CNT (R206): "It has no effect: the register is unchanged and no flag is set." -/
def execWrRoSynclossCnt (_w : Word) (s : State) : Host.Outcome State Fault Refusal := .next s

/-- WR_RO to DISCARD_CNT (R206): "It has no effect: the register is unchanged and no flag is set." -/
def execWrRoDiscardCnt (_w : Word) (s : State) : Host.Outcome State Fault Refusal := .next s

/-- WR_RO to ID (R206): "It has no effect: the register is unchanged and no flag is set." -/
def execWrRoId (_w : Word) (s : State) : Host.Outcome State Fault Refusal := .next s

/-- WR_RSVD (R208): "No effect and no flag." -/
def execWrRsvd (_addr : Byte) (_w : Word) (s : State) : Host.Outcome State Fault Refusal := .next s

/-! ## The reset pin -/

/-- RESET (R250). -/
def execReset (s : State) : Host.Outcome State Fault Refusal := .next (resetAll s)

end Sys2Proof.Machine
end

