-- ==== Sys2Proof/Machine/Framer.lean ====
section
/-! DEFINITION. The Framer (41_framer.md): opening a frame, finished intervals, bits into bytes, the preamble, closing a
frame, the stream end. Every procedure runs inside the sample step (R108). -/

namespace Sys2Proof.Machine

/-- `StartFrame` (R121). -/
def startFrame (s : State) : State :=
  { s with
    dec := { s.dec with
      preCnt := 0#5, bitTotal := 0#16, cur := 0#8, nbits := 0#4, nbytes := 0#8
      phase := if 0 < s.cfg.preLen.toNat then .syncing else .collecting } }

/-- `ByteDone` (R126). -/
def byteDone (s : State) : State :=
  if s.dec.nbytes.toNat = s.params.maxBytes then abort .overflow s
  else
    { s with
      buf := s.buf.set s.dec.nbytes.toNat s.dec.cur
      dec := { s.dec with nbytes := s.dec.nbytes + 1#8, cur := 0#8, nbits := 0#4 } }

/-- The bit enters `cur`, below the bits before it, and is counted (R125). -/
def appendBit (b : Bool) (s : State) : State :=
  { s with
    dec := { s.dec with
      bitTotal := s.dec.bitTotal + 1#16
      cur := (s.dec.cur <<< 1) ||| BitVec.setWidth 8 (BitVec.ofBool b)
      nbits := s.dec.nbits + 1#4 } }

/-- `PushBit` in COLLECTING (R125): bits fill a byte most significant first; the eighth completes it. -/
def pushPayloadBit (b : Bool) (s : State) : State :=
  if s.dec.nbits + 1#4 = 8#4 then byteDone (appendBit b s) else appendBit b s

/-- A bit is counted in `bit_total` (R125). -/
def countBit (s : State) : State := { s with dec := { s.dec with bitTotal := s.dec.bitTotal + 1#16 } }

/-- A preamble bit has matched (R127). -/
def matchBit (s : State) : State := { s with dec := { s.dec with preCnt := s.dec.preCnt + 1#5 } }

/-- `PushBit` in SYNCING (R127): preamble matching; the last match opens COLLECTING, a mismatch aborts (R128). -/
def pushPreambleBit (b : Bool) (s : State) : State :=
  if b = preambleBit s.cfg s.dec.preCnt then
    if s.dec.preCnt + 1#5 = s.cfg.preLen then setPhase .collecting (matchBit (countBit s)) else matchBit (countBit s)
  else abort .preambleMismatch (countBit s)

/-- `PushBit` (R125, R127), by the phase. In the other phases no bit is pushed (R124). -/
def pushBit (b : Bool) (s : State) : State :=
  match s.dec.phase with
  | .syncing => pushPreambleBit b s
  | .collecting => pushPayloadBit b s
  | .searching | .validating | .emit => s

/-- `LowEnded` (R122): a rising edge has finished a low interval of `len` samples. VALIDATING and EMIT cannot occur. -/
def lowEnded (len : Half) (s : State) : State :=
  match s.dec.phase with
  | .searching => if s.cfg.gapMin.toNat ≤ len.toNat then startFrame s else s
  | .syncing | .collecting => if classify s.cfg len = .none then abort .syncLossLow s else s
  | .validating | .emit => s

/-- `HighEnded` (R124): a falling edge has finished a high interval of `len` samples. -/
def highEnded (len : Half) (s : State) : State :=
  match s.dec.phase with
  | .syncing | .collecting =>
    if classify s.cfg len = .none then abort .syncLossHigh s
    else pushBit (bitOf s.cfg (classify s.cfg len)) s
  | .searching | .validating | .emit => s

/-- The bytes of the frame, `buf[0 .. nbytes-1]` (R130). -/
def frameBytes (s : State) : List Byte := s.buf.take s.dec.nbytes.toNat

/-- The packet record of a completed frame (R130). -/
def framePacket (s : State) : Packet :=
  { data := frameBytes s, bitCount := s.dec.bitTotal, validCheck := validCheck s.cfg.checkMode (frameBytes s) }

/-- `CompleteFrame` (R130): VALIDATING, the check, then `Emit`. -/
def completeFrame (s : State) : State := emitPacket (framePacket s) (setPhase .validating s)

/-- `GapReached` (R129): a low run has just reached GAP_MIN samples. -/
def gapReached (s : State) : State :=
  match s.dec.phase with
  | .syncing => abort .incompleteGap s
  | .collecting =>
    if s.dec.nbits ≠ 0#4 ∨ s.dec.nbytes = 0#8 then abort .incompleteGap s else completeFrame s
  | .searching | .validating | .emit => s

/-- The open frame of a stream that ends is discarded (R136). -/
def dropOpenFrame (s : State) : State :=
  match s.dec.phase with
  | .syncing | .collecting => abort .incompleteStreamEnd s
  | .searching | .validating | .emit => s

/-- `StreamEnd` (R136): an open frame is discarded, and the line tracker goes to the start of a stream. -/
def streamEnd (s : State) : State := setLine false 0xFFFF#16 (dropOpenFrame s)

end Sys2Proof.Machine
end

