-- ==== Sys2Proof/Machine/Sampler.lean ====
section
/-! DEFINITION. The sample step of the Bit Synchronizer (R102, R103, R107, R108), and the meanings of SAMPLE and
SAMPLE_LAST. -/

namespace Sys2Proof.Machine

/-- An edge's finished interval (R103): a low interval goes to `LowEnded`, a high one to `HighEnded`. -/
def edgeStep (s : State) : State := if s.dec.lvl then highEnded s.dec.run s else lowEnded s.dec.run s

/-- `Sample` (R108), in its order: the edge's finished interval, the line tracker, the gap, the stream end. -/
def sampleStep (x : Word) (last : Bool) (s : State) : State :=
  let v := slice s.cfg.thresh x
  let edge := v != s.dec.lvl
  let runNew := nextRun edge s.dec.run
  onlyIf last streamEnd
    (onlyIf (gapHit s.cfg v runNew s.dec.lvl s.dec.run) gapReached
      (setLine v runNew (onlyIf edge edgeStep s)))

/-- An offered sample (R72): processed while `s_ready = 1`; else "nothing happens until `s_ready = 1`". -/
def offerSample (x : Word) (last : Bool) (s : State) : State := if sReady s then sampleStep x last s else s

/-- SAMPLE (R108). -/
def execSample (x : Word) (s : State) : Host.Outcome State Fault Refusal := .next (offerSample x false s)

/-- SAMPLE_LAST (R108, R136). -/
def execSampleLast (x : Word) (s : State) : Host.Outcome State Fault Refusal := .next (offerSample x true s)

end Sys2Proof.Machine
end

