-- ==== Sys2Proof/Machine/Dispatch.lean ====
section
/-! DEFINITION. `exec`: one arm per operation, each one direct call of its meaning. An operation's meaning is its own effect
within a cycle, as its rule gives it; `cycle` (Machine/Cycle.lean) orders the operations of a cycle (R200, log entry 12). -/

namespace Sys2Proof.Machine

def exec (i : Instr) (s : State) : Host.Outcome State Fault Refusal :=
  match i with
  | .rdCtrl => Sys2Proof.Machine.execRdCtrl s
  | .wrCtrl w => Sys2Proof.Machine.execWrCtrl w s
  | .rdStatus => Sys2Proof.Machine.execRdStatus s
  | .wrStatus w => Sys2Proof.Machine.execWrStatus w s
  | .rdCfg => Sys2Proof.Machine.execRdCfg s
  | .wrCfg w => Sys2Proof.Machine.execWrCfg w s
  | .rdTol => Sys2Proof.Machine.execRdTol s
  | .wrTol w => Sys2Proof.Machine.execWrTol w s
  | .rdShortNom => Sys2Proof.Machine.execRdShortNom s
  | .wrShortNom w => Sys2Proof.Machine.execWrShortNom w s
  | .rdLongNom => Sys2Proof.Machine.execRdLongNom s
  | .wrLongNom w => Sys2Proof.Machine.execWrLongNom w s
  | .rdGapMin => Sys2Proof.Machine.execRdGapMin s
  | .wrGapMin w => Sys2Proof.Machine.execWrGapMin w s
  | .rdThresh => Sys2Proof.Machine.execRdThresh s
  | .wrThresh w => Sys2Proof.Machine.execWrThresh w s
  | .rdPreamble => Sys2Proof.Machine.execRdPreamble s
  | .wrPreamble w => Sys2Proof.Machine.execWrPreamble w s
  | .rdPktCnt => Sys2Proof.Machine.execRdPktCnt s
  | .rdBadCnt => Sys2Proof.Machine.execRdBadCnt s
  | .rdSynclossCnt => Sys2Proof.Machine.execRdSynclossCnt s
  | .rdDiscardCnt => Sys2Proof.Machine.execRdDiscardCnt s
  | .rdId => Sys2Proof.Machine.execRdId s
  | .wrRoPktCnt w => Sys2Proof.Machine.execWrRoPktCnt w s
  | .wrRoBadCnt w => Sys2Proof.Machine.execWrRoBadCnt w s
  | .wrRoSynclossCnt w => Sys2Proof.Machine.execWrRoSynclossCnt w s
  | .wrRoDiscardCnt w => Sys2Proof.Machine.execWrRoDiscardCnt w s
  | .wrRoId w => Sys2Proof.Machine.execWrRoId w s
  | .rdRsvd addr => Sys2Proof.Machine.execRdRsvd addr s
  | .wrRsvd addr w => Sys2Proof.Machine.execWrRsvd addr w s
  | .sample x => Sys2Proof.Machine.execSample x s
  | .sampleLast x => Sys2Proof.Machine.execSampleLast x s
  | .beat => Sys2Proof.Machine.execBeat s
  | .reset => Sys2Proof.Machine.execReset s

end Sys2Proof.Machine
end

