-- ==== Sys2Proof/Machine/Cycle.lean ====
section
/-! DEFINITION. One clock cycle (R200): the operations its input signals stand for, decoded by the three formats, run step by
step in the fixed order; and where a cycle's inputs come from (R22). -/

namespace Sys2Proof.Machine

/-! ## The order of a cycle -/

/-- The steps of a cycle (R200): the pin alone; else 1 the read, 2 the output step, 3 the EMIT retry (no operation), 4 the
sample step, 5 the register write. -/
inductive Stage where
  | pin
  | read
  | output
  | sample
  | write
deriving DecidableEq, Repr

/-- The step of the cycle in which an operation acts (R200). -/
def stageOf : Instr → Stage
  | .rdCtrl | .rdStatus | .rdCfg | .rdTol | .rdShortNom | .rdLongNom | .rdGapMin | .rdThresh | .rdPreamble => .read
  | .rdPktCnt | .rdBadCnt | .rdSynclossCnt | .rdDiscardCnt | .rdId | .rdRsvd _ => .read
  | .wrCtrl _ | .wrStatus _ | .wrCfg _ | .wrTol _ | .wrShortNom _ | .wrLongNom _ | .wrGapMin _ | .wrThresh _ => .write
  | .wrPreamble _ | .wrRoPktCnt _ | .wrRoBadCnt _ | .wrRoSynclossCnt _ | .wrRoDiscardCnt _ | .wrRoId _ => .write
  | .wrRsvd _ _ => .write
  | .sample _ | .sampleLast _ => .sample
  | .beat => .output
  | .reset => .pin

/-- The BUS operation of a cycle: one if `reg_sel = 1`, else none (R71). -/
def busOps (p : Inputs) : List Instr :=
  if p.regSel then [decodeBus (busOp p.regWr p.regAddr) p.regWdata] else []

/-- The operations of a cycle that starts in `s`: the pin's alone when `rst = 1` (R70: "every other input of that cycle is
ignored"), else the BUS operation and those of the PORT word. -/
def cycleOps (s : State) (p : Inputs) : Except Reject (List Instr) :=
  match decodePin (BitVec.ofBool p.rst) with
  | i :: rest => .ok (i :: rest)
  | [] => (decodePort (portWord s p) p.sData).map (busOps p ++ ·)

/-- Run operations one after another. -/
def execList : List Instr → State → Host.Outcome State Fault Refusal
  | [], s => .next s
  | i :: rest, s => andThen (exec i s) (execList rest)

/-- Run the operations of one step of the cycle. -/
def runStage (k : Stage) (ops : List Instr) (s : State) : Host.Outcome State Fault Refusal :=
  execList (ops.filter (stageOf · == k)) s

/-- Step 1 of R200: the output signals of the cycle, from the state at its start. -/
def driveOutputs (s : State) : State := { s with out := stateOutputs s }

/-- Step 3 of R200: the EMIT retry, "if S0.phase == EMIT". -/
def retryStage (s0 s : State) : State := if s0.dec.phase = .emit then emitRetry s else s

/-- The steps of R200 over the operations of a cycle that starts in `s0`. -/
def runOps (ops : List Instr) (s0 : State) : Host.Outcome State Fault Refusal :=
  andThen (runStage .pin ops (driveOutputs s0)) fun s =>
    if ops.any (stageOf · == .pin) then .next s
    else
      andThen (runStage .read ops s) fun s =>
      andThen (runStage .output ops s) fun s =>
      andThen (runStage .sample ops (retryStage s0 s)) fun s =>
      runStage .write ops s

/-- `Cycle` (R200): one clock cycle with the given inputs. -/
def cycle (p : Inputs) (s : State) : Host.Outcome State Fault Refusal :=
  match cycleOps s p with
  | .ok ops => runOps ops s
  | .error _ => .refused .impossiblePort

/-! ## Where the inputs come from -/

/-- The inputs of the coming cycle: the host's next drive, or free inputs where none stands (R22, D40; log entry 2). -/
def nextDrive (s : State) : Drive :=
  match s.host with
  | d :: _ => d
  | [] => { inputs := Config.hostInputs s.drawn, hold := false }

/-- A drive that holds its sample stays until the cycle that accepts it (R82, R257): "a sample is accepted in a cycle iff
`s_valid = 1` and `s_ready = 1` in that cycle, and `rst = 0`" (R72). -/
def staysOffered (s : State) (d : Drive) : Bool :=
  d.hold && d.inputs.sValid && !(sReady s && !d.inputs.rst)

/-- The state with the coming cycle's drive taken from the schedule. -/
def takeDrive (s : State) : State :=
  match s.host with
  | d :: rest => if staysOffered s d then s else { s with host := rest }
  | [] => { s with drawn := s.drawn + 1 }

/-- One step: the coming cycle, with the inputs the host drives in it. -/
def clockStep (s : State) : Host.Outcome State Fault Refusal := cycle (nextDrive s).inputs (takeDrive s)

/-! ## Placing one operation (log entry 3) -/

/-- A packet of one byte, for a BEAT that needs a packet to transmit (log entry 3). -/
def placedPacket : Packet := { data := [0#8], bitCount := 8#16, validCheck := true }

/-- What the handshake of an operation takes: `s_ready = 1` for a sample (R72), `m_valid = 1` for a beat (R73). -/
def makeReady (i : Instr) (s : State) : State :=
  match stageOf i with
  | .sample =>
    { s with
      en := true
      dec := if s.dec.phase = .emit then { s.dec with phase := .searching, pend := none } else s.dec }
  | .output => if s.queue.isEmpty then { s with queue := [placedPacket], beat := 0#8 } else s
  | .pin | .read | .write => s

/-- The state whose coming cycle performs the operation, alone. -/
def placeInstr (i : Instr) (s : State) : State :=
  makeReady i { s with host := { inputs := i.inputs, hold := false } :: s.host }

end Sys2Proof.Machine
end

