-- ==== Sys2Proof/Machine/Step.lean ====
section
/-! DEFINITION. The step: one clock cycle (R22, R200). And the host's way to place one operation (log entry 3). -/

namespace Sys2Proof.Machine

/-- One clock cycle, with the inputs the host drives in it. -/
def step (s : State) : Host.Outcome State Fault Refusal := clockStep s

/-- The state whose next step runs the operation of a table word; a word that stands for none leaves the state. -/
def State.withFetchWord (s : State) (nbits w : Nat) : State :=
  match decodeTableWord nbits w with
  | some i => placeInstr i s
  | none => s

end Sys2Proof.Machine
end

