-- ==== Sys2Proof/Machine/HostProgram.lean ====
section
/-! DEFINITION. The host's side of the spec's programs: the assembler actions (30_encoding.md R82) as drives of the input
signals, and the test encoder's macros (R83). Nothing of the block depends on this file: it says what input schedules the spec's
own programs are. -/

namespace Sys2Proof.Machine

/-- The registers by their symbolic names (R82, 10_state.md R31 to R43). -/
inductive RegName where
  | ctrl
  | status
  | cfg
  | tol
  | shortNom
  | longNom
  | gapMin
  | thresh
  | preamble
  | pktCnt
  | badCnt
  | synclossCnt
  | discardCnt
  | id
deriving DecidableEq, Repr

/-- The bus address of a register (R31 to R43, R79). -/
def RegName.addr : RegName → Byte
  | .ctrl => 0x00#8
  | .status => 0x04#8
  | .cfg => 0x08#8
  | .tol => 0x0C#8
  | .shortNom => 0x10#8
  | .longNom => 0x14#8
  | .gapMin => 0x18#8
  | .thresh => 0x1C#8
  | .preamble => 0x20#8
  | .pktCnt => 0x24#8
  | .badCnt => 0x28#8
  | .synclossCnt => 0x2C#8
  | .discardCnt => 0x30#8
  | .id => 0x34#8

/-- The actions of R82. -/
inductive Action where
  | wr (r : RegName) (v : Word)
  | rd (r : RegName)
  | smp (x : Word)
  | smpl (x : Word)
  | pop
  | idle (n : Nat)
deriving DecidableEq, Repr

/-- The drives of an action (R82): one cycle each, but `IDLE n` takes n, and `SMP`, `SMPL` are held until accepted. -/
def Action.drives : Action → List Drive
  | .wr r v =>
    [{ inputs := { Inputs.idle with regSel := true, regWr := true, regAddr := r.addr, regWdata := v }, hold := false }]
  | .rd r => [{ inputs := { Inputs.idle with regSel := true, regAddr := r.addr }, hold := false }]
  | .smp x => [{ inputs := { Inputs.idle with sValid := true, sData := x }, hold := true }]
  | .smpl x => [{ inputs := { Inputs.idle with sValid := true, sData := x, sLast := true }, hold := true }]
  | .pop => [{ inputs := { Inputs.idle with mReady := true }, hold := false }]
  | .idle n => List.replicate n { inputs := Inputs.idle, hold := false }

/-- The schedule of a program, one action after another (R82). -/
def programDrives (prog : List Action) : List Drive := (prog.map Action.drives).flatten

/-- The sample literals of R82: `1.0` and `0.0`. -/
def sampleOf (lvl : Bool) : Word := if lvl then 0x3F800000#32 else 0x00000000#32

/-- `HI n` and `LO n` (R83). -/
def encodeRun (lvl : Bool) (n : Nat) : List Action := List.replicate n (.smp (sampleOf lvl))

/-- `BIT b` (R83): a bit sent as 1 is a long high and a short low, one sent as 0 a short high and a long low; "with BITPOL = 1,
BIT 0 and BIT 1 exchange expansions". -/
def encodeBit (c : ConfigRegs) (b : Bool) : List Action :=
  if b ^^ c.bitpol then encodeRun true c.longNom.toNat ++ encodeRun false c.shortNom.toNat
  else encodeRun true c.shortNom.toNat ++ encodeRun false c.longNom.toNat

/-- Bits in order (R83). -/
def encodeBits (c : ConfigRegs) (bs : List Bool) : List Action := (bs.map (encodeBit c)).flatten

/-- `NIB x` (R83): bits 3 down to 0. -/
def encodeNibble (c : ConfigRegs) (x : BitVec 4) : List Action :=
  encodeBits c [x.getLsbD 3, x.getLsbD 2, x.getLsbD 1, x.getLsbD 0]

/-- `BYTE x` (R83): the high nibble, then the low one. -/
def encodeByte (c : ConfigRegs) (x : Byte) : List Action :=
  encodeNibble c (x.extractLsb' 4 4) ++ encodeNibble c (x.extractLsb' 0 4)

/-- `PRE` (R83): `PREAMBLE[PRE_LEN-1]` down to `PREAMBLE[0]`. -/
def encodePreamble (c : ConfigRegs) : List Action :=
  encodeBits c ((List.range c.preLen.toNat).map fun k => c.preamble.getLsbD (c.preLen.toNat - 1 - k))

/-- `GAP` (R83). -/
def encodeGap (c : ConfigRegs) : List Action := encodeRun false c.gapMin.toNat

/-- `FRAME x0, ..., xk` (R83). -/
def encodeFrame (c : ConfigRegs) (d : List Byte) : List Action :=
  encodePreamble c ++ (d.map (encodeByte c)).flatten ++ encodeGap c

end Sys2Proof.Machine
end

