-- ==== Sys2Proof/Safety.lean ====
section
/-! DEFINITION. What counts as a state that a run can reach (the invariant `State.Inv`), what an operation of the decoder leaves
alone (`SameControl`), and the kinds of operations claims speak of. -/

namespace Sys2Proof

open Sys2Proof.Machine

/-- The operations that write a configuration register (R30): CFG, TOL, SHORT_NOM, LONG_NOM, GAP_MIN, THRESH, PREAMBLE. -/
def Instr.isConfigWrite : Instr → Bool
  | .wrCfg _ | .wrTol _ | .wrShortNom _ | .wrLongNom _ | .wrGapMin _ | .wrThresh _ | .wrPreamble _ => true
  | .rdCtrl | .wrCtrl _ | .rdStatus | .wrStatus _ | .rdCfg | .rdTol | .rdShortNom | .rdLongNom | .rdGapMin => false
  | .rdThresh | .rdPreamble | .rdPktCnt | .rdBadCnt | .rdSynclossCnt | .rdDiscardCnt | .rdId | .rdRsvd _ => false
  | .wrRoPktCnt _ | .wrRoBadCnt _ | .wrRoSynclossCnt _ | .wrRoDiscardCnt _ | .wrRoId _ | .wrRsvd _ _ => false
  | .sample _ | .sampleLast _ | .beat | .reset => false

namespace Machine

/-- A frame is open: SYNCING or COLLECTING (R25, R220). -/
def Phase.isOpen : Phase → Bool
  | .syncing | .collecting => true
  | .searching | .validating | .emit => false

/-- What a packet record of this block looks like (R137): at least one byte, at most MAX_BYTES, and a bit count of eight a
byte and 0 to 16 for the preamble in force when it was decoded. -/
def Packet.wf (maxBytes : Nat) (p : Packet) : Prop :=
  1 ≤ p.data.length ∧ p.data.length ≤ maxBytes ∧ 8 * p.data.length ≤ p.bitCount.toNat ∧
    p.bitCount.toNat ≤ 16 + 8 * p.data.length

/-- The beat index points at a beat of the head packet (R28), and is 0 when there is none. -/
def beatInRange (s : State) : Prop :=
  match s.queue with
  | [] => s.beat = 0#8
  | p :: _ => s.beat.toNat ≤ p.data.length

/-- The invariant of the block: it holds at reset and every cycle keeps it, whatever the host does. -/
structure State.Inv (s : State) : Prop where
  /-- The parameters are legal (R7). -/
  params : s.params.legal = true
  /-- The frame buffer has MAX_BYTES bytes, and `nbytes` counts some of them (R26). -/
  bufLength : s.buf.length = s.params.maxBytes
  nbytes : s.dec.nbytes.toNat ≤ s.params.maxBytes
  /-- The queue holds at most OUTQ_DEPTH packets (R28), each of the form R137 gives. -/
  queueLength : s.queue.length ≤ s.params.outqDepth
  queueWf : ∀ p ∈ s.queue, p.wf s.params.maxBytes
  beat : beatInRange s
  /-- The WARL fields hold legal values (R33, R36). -/
  preLen : s.cfg.preLen.toNat ≤ 16
  gapMin : s.cfg.gapMin ≠ 0#16
  /-- "VALIDATING is never held at a cycle boundary" (R120). -/
  notValidating : s.dec.phase ≠ .validating
  /-- A run has at least one sample (R23, R102). -/
  run : s.dec.run ≠ 0#16
  /-- While CTRL.EN = 0 the decoder state is at its reset value (R199). -/
  disabled : s.en = false → s.dec = Decoder.reset
  /-- While CTRL.EN = 1 the tolerance is legal (R104, R176), and no refused enable is the most recent one (R32). -/
  enabled : s.en = true → tolLegal s.cfg.tol = true ∧ s.cfgErr = false
  /-- In SYNCING fewer than PRE_LEN bits have come, all of them preamble (R127). -/
  syncing : s.dec.phase = .syncing → s.dec.preCnt.toNat < s.cfg.preLen.toNat ∧
    s.dec.bitTotal.toNat = s.dec.preCnt.toNat ∧ s.dec.nbits = 0#4 ∧ s.dec.nbytes = 0#8
  /-- In COLLECTING every bit that came is a preamble bit, a bit of a whole byte or one of `cur` (R125, R131). -/
  collecting : s.dec.phase = .collecting → s.dec.nbits.toNat ≤ 7 ∧
    s.dec.bitTotal.toNat = s.cfg.preLen.toNat + 8 * s.dec.nbytes.toNat + s.dec.nbits.toNat
  /-- "Inside a frame, a low interval always has R < GAP_MIN" (R122). -/
  lowInFrame : s.dec.phase.isOpen = true → s.dec.lvl = false → s.dec.run.toNat < s.cfg.gapMin.toNat
  /-- A packet is pending exactly in EMIT (R27), with the bit count of the configuration in force (R131). -/
  pendSome : s.dec.pend ≠ none ↔ s.dec.phase = .emit
  pendWf : ∀ p ∈ s.dec.pend, 1 ≤ p.data.length ∧ p.data.length ≤ s.params.maxBytes ∧
    p.bitCount.toNat = s.cfg.preLen.toNat + 8 * p.data.length
  /-- "EMIT is held only while the output queue is full" (R120), and the closing gap goes on meanwhile (R134). -/
  emit : s.dec.phase = .emit → s.queue.length = s.params.outqDepth ∧ s.dec.lvl = false ∧
    s.cfg.gapMin.toNat ≤ s.dec.run.toNat

/-- The decoder's own operations (samples, the EMIT retry) leave alone the parameters, the control and status flags, the
configuration, the beat index, the output signals and the host's schedule (R108 "State written"). -/
structure SameControl (s t : State) : Prop where
  params : t.params = s.params
  en : t.en = s.en
  cfgErr : t.cfgErr = s.cfgErr
  werr : t.werr = s.werr
  cfg : t.cfg = s.cfg
  beat : t.beat = s.beat
  out : t.out = s.out
  host : t.host = s.host
  drawn : t.drawn = s.drawn

/-- The events that discard a frame, codes 1 to 6 (R220). -/
def discardEvents : List Event :=
  [.syncLossHigh, .syncLossLow, .preambleMismatch, .incompleteGap, .incompleteStreamEnd, .overflow]

/-- What a stretch of a cycle may do to the events (R220, R224, R225): nothing; discard one frame, counted in DISCARD_CNT
and for codes 1 and 2 in SYNCLOSS_CNT; or push one packet, counted in PKT_CNT and for a false check in BAD_CNT. -/
def EventDelta (s t : State) : Prop :=
  (t.cnt = s.cnt ∧ t.lastEvt = s.lastEvt) ∨
  (t.lastEvt ∈ discardEvents ∧
    t.cnt = { s.cnt with
      discard := s.cnt.discard + 1#32
      syncloss :=
        if t.lastEvt = .syncLossHigh ∨ t.lastEvt = .syncLossLow then s.cnt.syncloss + 1#32 else s.cnt.syncloss }) ∨
  ((t.lastEvt = .packetOk ∨ t.lastEvt = .checkMismatch) ∧
    t.cnt = { s.cnt with
      pkt := s.cnt.pkt + 1#32
      bad := if t.lastEvt = .checkMismatch then s.cnt.bad + 1#32 else s.cnt.bad })

/-- `n` clock cycles, stopping at the first fault or refusal. -/
def runCycles : Nat → State → Host.Outcome State Fault Refusal
  | 0, s => .next s
  | n + 1, s => andThen (step s) (runCycles n)

/-- Two states that differ at most in frame-buffer bytes at or above `nbytes` (U1). -/
def sameButStaleBytes (s t : State) : Prop :=
  t = { s with buf := t.buf } ∧ t.buf.length = s.buf.length ∧
    t.buf.take s.dec.nbytes.toNat = s.buf.take s.dec.nbytes.toNat

end Machine

end Sys2Proof
end

