-- ==== Sys2Proof/Certificates/Slice0/Obligations.lean ====
section
/-! DEFINITION. The statements for the provers, in the order of OBLIGATIONS.json. Each docstring says which rules of spec/ it
formalises. -/

open Sys2Proof Sys2Proof.Machine

/-! ## Encoding -/

/-- A few words written out bit by bit from R74, R75, R79. That the decoder rejects 0b010 by name is the model's choice (log
entry 18; U11 of 93_implementation_defined.md): R75 says only that the word cannot occur. -/
def Obligations.SpecWordsDecode : Prop :=
  decodeBus 0b1_0000_0000#9 0x00000001#32 = .wrCtrl 0x00000001#32 ∧
  decodeBus 0b0_0000_0100#9 0x00000000#32 = .rdStatus ∧
  decodeBus 0b1_0000_1100#9 0x0000199A#32 = .wrTol 0x0000199A#32 ∧
  decodeBus 0b1_0011_0100#9 0x00000000#32 = .wrRoId 0x00000000#32 ∧
  decodeBus 0b0_0000_0010#9 0x00000000#32 = .rdRsvd 0x02#8 ∧
  decodeBus 0b1_0100_0000#9 0x00000005#32 = .wrRsvd 0x40#8 0x00000005#32 ∧
  decodePort 0b100#3 0x3F800000#32 = .ok [.sample 0x3F800000#32] ∧
  decodePort 0b111#3 0x00000000#32 = .ok [.sampleLast 0x00000000#32, .beat] ∧
  decodePort 0b010#3 0x00000000#32 = .error .impossiblePort ∧
  decodePin 0b1#1 = [.reset]

/-- R79: the operation map, every row. -/
def Obligations.OperationMap : Prop :=
  (∀ w : Word,
    decodeBus 0x000#9 w = .rdCtrl ∧ decodeBus 0x100#9 w = .wrCtrl w ∧
    decodeBus 0x004#9 w = .rdStatus ∧ decodeBus 0x104#9 w = .wrStatus w ∧
    decodeBus 0x008#9 w = .rdCfg ∧ decodeBus 0x108#9 w = .wrCfg w ∧
    decodeBus 0x00C#9 w = .rdTol ∧ decodeBus 0x10C#9 w = .wrTol w ∧
    decodeBus 0x010#9 w = .rdShortNom ∧ decodeBus 0x110#9 w = .wrShortNom w ∧
    decodeBus 0x014#9 w = .rdLongNom ∧ decodeBus 0x114#9 w = .wrLongNom w ∧
    decodeBus 0x018#9 w = .rdGapMin ∧ decodeBus 0x118#9 w = .wrGapMin w ∧
    decodeBus 0x01C#9 w = .rdThresh ∧ decodeBus 0x11C#9 w = .wrThresh w ∧
    decodeBus 0x020#9 w = .rdPreamble ∧ decodeBus 0x120#9 w = .wrPreamble w ∧
    decodeBus 0x024#9 w = .rdPktCnt ∧ decodeBus 0x124#9 w = .wrRoPktCnt w ∧
    decodeBus 0x028#9 w = .rdBadCnt ∧ decodeBus 0x128#9 w = .wrRoBadCnt w ∧
    decodeBus 0x02C#9 w = .rdSynclossCnt ∧ decodeBus 0x12C#9 w = .wrRoSynclossCnt w ∧
    decodeBus 0x030#9 w = .rdDiscardCnt ∧ decodeBus 0x130#9 w = .wrRoDiscardCnt w ∧
    decodeBus 0x034#9 w = .rdId ∧ decodeBus 0x134#9 w = .wrRoId w) ∧
  (∀ (op : BitVec 9) (a : Byte) (w : Word),
    (decodeBus op w = .rdRsvd a ↔
      op.getLsbD 8 = false ∧ op.extractLsb' 0 8 = a ∧ (0x38 ≤ a.toNat ∨ a.toNat % 4 ≠ 0)) ∧
    (decodeBus op w = .wrRsvd a w ↔
      op.getLsbD 8 = true ∧ op.extractLsb' 0 8 = a ∧ (0x38 ≤ a.toNat ∨ a.toNat % 4 ≠ 0))) ∧
  (∀ (pt : BitVec 3) (x : Word) (ops : List Instr), decodePort pt x = .ok ops →
    (.sample x ∈ ops ↔ pt.getLsbD 2 = true ∧ pt.getLsbD 1 = false) ∧
    (.sampleLast x ∈ ops ↔ pt.getLsbD 2 = true ∧ pt.getLsbD 1 = true) ∧
    (.beat ∈ ops ↔ pt.getLsbD 0 = true)) ∧
  decodePin 1#1 = [.reset] ∧ decodePin 0#1 = []

/-- R74, R75, R79: decoding the encoding of a well-formed operation gives it back, whatever bytes follow. -/
def Obligations.DecodeOfEncode : Prop :=
  ∀ (i : Instr) (rest : List Byte), i.wellFormed = true →
    decode (encode i).1 ((encode i).2 ++ rest) = .ok ([i], rest)

/-- R80: every BUS word stands for a well-formed operation whose word it is; of a write no operand bit is dropped. -/
def Obligations.EveryBusWordIsAnOperation : Prop :=
  ∀ (op : BitVec 9) (w : Word), (decodeBus op w).wellFormed = true ∧
    (decodeBus op w).opWord = .bus op (if op.getLsbD 8 then w else 0#32)

/-- R75: the PORT word of a cycle, its bits, that 0b010 does not occur, and that bits 2 and 0 and the bus are independent. -/
def Obligations.PortWordOfCycle : Prop :=
  (∀ (s : State) (p : Inputs),
    ((portWord s p).getLsbD 2 = true ↔ p.sValid = true ∧ sReady s = true) ∧
    ((portWord s p).getLsbD 1 = true ↔ p.sValid = true ∧ sReady s = true ∧ p.sLast = true) ∧
    ((portWord s p).getLsbD 0 = true ↔ mValid s = true ∧ p.mReady = true) ∧
    portWord s p ≠ 0b010#3) ∧
  ∃ (s : State) (p : Inputs) (x : Word) (w : Word), cycleOps s p = .ok [.wrCtrl w, .sample x, .beat]

/-! ## The cycle -/

/-- R200 with R74, R75: a cycle whose words decode to one operation runs `exec` of it, after the outputs are driven, with
the EMIT retry of step 3 after a read or a beat and before a sample or a write. -/
def Obligations.StepRunsDecodedOperation : Prop :=
  ∀ (s : State) (d : Drive) (rest : List Drive) (i : Instr), s.host = d :: rest →
    cycleOps s d.inputs = .ok [i] →
    step s =
      match stageOf i with
      | .pin => exec i (driveOutputs (takeDrive s))
      | .read | .output => andThen (exec i (driveOutputs (takeDrive s))) fun t => .next (retryStage s t)
      | .sample | .write => exec i (retryStage s (driveOutputs (takeDrive s)))

/-- R71 to R73, R79: the input signals of a well-formed operation decode, in a cycle whose handshakes it needs are open, to
it alone. -/
def Obligations.OperationCanBeDriven : Prop :=
  ∀ (i : Instr) (s : State), i.wellFormed = true →
    (stageOf i = .sample → sReady s = true) → (stageOf i = .output → mValid s = true) →
    cycleOps s i.inputs = .ok [i]

/-- R200: the order of one clock cycle. -/
def Obligations.CycleOrder : Prop :=
  (∀ (s : State) (p : Inputs), p.rst = true → ∃ o : Outputs, cycle p s = .next { resetAll s with out := o }) ∧
  (∀ (s : State) (p : Inputs), p.rst = false →
    cycle p s =
      andThen
        (if p.regSel ∧ ¬ p.regWr then exec (decodeBus (busOp false p.regAddr) p.regWdata) (driveOutputs s)
          else .next (driveOutputs s))
        fun a =>
          let b := if mValid s ∧ p.mReady then beatStep a else a
          let c := if s.dec.phase = .emit then emitRetry b else b
          let d := if p.sValid ∧ sReady s then sampleStep p.sData p.sLast c else c
          if p.regSel ∧ p.regWr then exec (decodeBus (busOp true p.regAddr) p.regWdata) d else .next d) ∧
  (∀ s : State, s.dec.phase = .emit → sReady s = false) ∧
  (∀ (s : State) (x : Word) (l : Bool),
    (beatStep s).en = s.en ∧ (beatStep s).cfg = s.cfg ∧ (emitRetry s).en = s.en ∧ (emitRetry s).cfg = s.cfg ∧
    (sampleStep x l s).en = s.en ∧ (sampleStep x l s).cfg = s.cfg)

/-- R80, R221, R227: nothing traps. Every step, in every state and whatever the host drives, ends in a next state. -/
def Obligations.StepAlwaysCompletes : Prop := ∀ s : State, ∃ t, step s = .next t

/-- R71: `reg_rdata` is the addressed register's value at the start of the cycle in a read cycle, and 0 in any cycle whose
bus signals are not a read's, a reset cycle too; the bus fields are ignored while `reg_sel = 0`. Only a reset cycle with a read's
signals is left open (log entry 7). -/
def Obligations.RegisterBusReadData : Prop :=
  (∀ (s t u : State) (p : Inputs), cycle p s = .next t → p.rst = false → p.regSel = true → p.regWr = false →
    exec (decodeBus (busOp false p.regAddr) p.regWdata) s = .next u → t.out.regRdata = u.out.regRdata) ∧
  (∀ (s t : State) (p : Inputs), cycle p s = .next t → (p.regSel = false ∨ p.regWr = true) →
    t.out.regRdata = 0#32) ∧
  (∀ (s : State) (p : Inputs) (wr : Bool) (a : Byte) (w : Word), p.regSel = false →
    cycle { p with regWr := wr, regAddr := a, regWdata := w } s = cycle p s)

/-- R72: `s_ready`, when a sample is accepted and processed, and that the port is ignored otherwise. -/
def Obligations.SamplePortHandshake : Prop :=
  (∀ s : State, (driveOutputs s).out.sReady = true ↔ s.en = true ∧ s.dec.phase ≠ .emit) ∧
  (∀ (s : State) (p : Inputs) (ops : List Instr), cycleOps s p = .ok ops →
    ((.sample p.sData ∈ ops ∨ .sampleLast p.sData ∈ ops) ↔
      p.sValid = true ∧ (s.en = true ∧ s.dec.phase ≠ .emit) ∧ p.rst = false) ∧
    (.sampleLast p.sData ∈ ops → p.sLast = true) ∧ (.sample p.sData ∈ ops → p.sLast = false)) ∧
  (∀ (s : State) (x : Word), sReady s = true →
    exec (.sample x) s = .next (sampleStep x false s) ∧ exec (.sampleLast x) s = .next (sampleStep x true s)) ∧
  (∀ (s : State) (x : Word), sReady s = false → exec (.sample x) s = .next s ∧ exec (.sampleLast x) s = .next s) ∧
  (∀ (s : State) (p : Inputs) (x : Word) (l : Bool), p.sValid = false →
    cycle { p with sData := x, sLast := l } s = cycle p s)

/-- R73: the output port's signals in every cycle, from the state at its start, and when a beat transfers. -/
def Obligations.OutputPortSignals : Prop :=
  (∀ s t : State, step s = .next t →
    match s.queue with
    | [] => t.out.mValid = false ∧ t.out.mData = 0#32 ∧ t.out.mHdr = false ∧ t.out.mLast = false
    | p :: _ =>
      t.out.mValid = true ∧ t.out.mData = beatWord p s.beat.toNat ∧ (t.out.mHdr = true ↔ s.beat = 0#8) ∧
        (t.out.mLast = true ↔ s.beat.toNat = p.data.length)) ∧
  (∀ (s : State) (p : Inputs) (ops : List Instr), cycleOps s p = .ok ops →
    (.beat ∈ ops ↔ s.queue ≠ [] ∧ p.mReady = true ∧ p.rst = false))

/-- R76, R77: the fields of the header beat and of the data beats, with `m_hdr` and `m_last`. -/
def Obligations.BeatFormats : Prop :=
  ∀ (s : State) (p : Packet) (rest : List Packet), s.queue = p :: rest → 1 ≤ p.data.length → p.data.length ≤ 255 →
    (s.beat = 0#8 →
      let o := (driveOutputs s).out
      o.mData.extractLsb' 0 16 = p.bitCount ∧ o.mData.getLsbD 16 = p.validCheck ∧ o.mData.extractLsb' 17 7 = 0#7 ∧
        (o.mData.extractLsb' 24 8).toNat = p.data.length ∧ o.mHdr = true ∧ o.mLast = false) ∧
    (∀ k : Nat, 1 ≤ k → k ≤ p.data.length → s.beat.toNat = k →
      let o := (driveOutputs s).out
      p.data[k - 1]? = some (o.mData.extractLsb' 0 8) ∧ o.mData.extractLsb' 8 24 = 0#24 ∧ o.mHdr = false ∧
        (o.mLast = true ↔ k = p.data.length))

/-! ## Reset and invariants -/

/-- R47: the reset values. The frame buffer's content is unspecified there and not stated here. -/
def Obligations.ResetValues : Prop :=
  let s := State.reset
  (s.dec.lvl = false ∧ s.dec.run = 0xFFFF#16) ∧ s.dec.phase = .searching ∧
  (s.dec.preCnt = 0#5 ∧ s.dec.bitTotal = 0#16 ∧ s.dec.cur = 0#8 ∧ s.dec.nbits = 0#4 ∧ s.dec.nbytes = 0#8) ∧
  s.dec.pend = none ∧ (s.queue = [] ∧ s.beat = 0#8) ∧ s.lastEvt.code = 0#4 ∧
  ctrlWord s = 0x00000000#32 ∧ statusWord s = 0x00000000#32 ∧ cfgWord s = 0x00000000#32 ∧
  s.cfg.tol = 0x00004000#32 ∧ (zext32 s.cfg.shortNom = 0x00000004#32 ∧ zext32 s.cfg.longNom = 0x00000008#32) ∧
  zext32 s.cfg.gapMin = 0x00000010#32 ∧ s.cfg.thresh = 0x3F000000#32 ∧ zext32 s.cfg.preamble = 0x00000000#32 ∧
  (s.cnt.pkt = 0#32 ∧ s.cnt.bad = 0#32 ∧ s.cnt.syncloss = 0#32 ∧ s.cnt.discard = 0#32) ∧
  idValue = 0x4F4F4B01#32

/-- R250: RESET, in every state; the parameters stay, and a cycle with `rst = 1` ignores every other input. -/
def Obligations.ResetOperation : Prop :=
  (∀ s : State, ∃ t, exec .reset s = .next t ∧
    t.en = false ∧ t.cfgErr = false ∧ t.werr = false ∧ t.lastEvt = .none ∧
    t.dec = { lvl := false, run := 0xFFFF#16, phase := .searching, preCnt := 0#5, bitTotal := 0#16, cur := 0#8,
              nbits := 0#4, nbytes := 0#8, pend := none } ∧
    t.queue = [] ∧ t.beat = 0#8 ∧
    t.cfg = { bitpol := false, checkMode := .none, preLen := 0#5, tol := 0x00004000#32, shortNom := 4#16,
              longNom := 8#16, gapMin := 16#16, thresh := 0x3F000000#32, preamble := 0#16 } ∧
    t.cnt = { pkt := 0#32, bad := 0#32, syncloss := 0#32, discard := 0#32 } ∧
    t.params = s.params ∧ t.host = s.host ∧ t.drawn = s.drawn ∧ t.out = s.out) ∧
  (∀ (s : State) (p q : Inputs), p.rst = true → q.rst = true → cycle p s = cycle q s)

/-- The invariant holds at reset, with any legal parameters (R7, R47). -/
def Obligations.InvariantAtReset : Prop :=
  State.Inv State.reset ∧ ∀ p : Params, p.legal = true → State.Inv (State.resetOf p)

/-- Every step from a state that meets the invariant ends in one that meets it, whatever the host drives. -/
def Obligations.StepKeepsInvariant : Prop := ∀ s t : State, State.Inv s → step s = .next t → State.Inv t

/-- R199: while CTRL.EN = 0 the decoder state is at its reset value; true at reset, kept by every step. -/
def Obligations.DisabledDecoderStaysReset : Prop :=
  ((State.reset.en = false → State.reset.dec = Decoder.reset)) ∧
  ∀ s t : State, (s.en = false → s.dec = Decoder.reset) → step s = .next t →
    (t.en = false → t.dec = Decoder.reset)

/-- R30, R63: while CTRL.EN = 1 no cycle but a reset changes a configuration register. -/
def Obligations.ConfigurationFixedWhileEnabled : Prop :=
  ∀ (s t : State), s.en = true → (nextDrive s).inputs.rst = false → step s = .next t → t.cfg = s.cfg

/-! ## Register reads -/

/-- R183, R184, R185: RD_CTRL, RD_STATUS and RD_CFG, field by field; nothing but `reg_rdata` changes. The codes that PHASE,
LAST_EVT and CHECK_MODE read are those of R24, R29 (R220) and R33, value by value. -/
def Obligations.ReadControlStatusAndCfg : Prop :=
  (∀ s : State, exec .rdCtrl s = .next { s with out := { s.out with regRdata := if s.en then 1#32 else 0#32 } }) ∧
  (∀ s : State, ∃ v : Word, exec .rdStatus s = .next { s with out := { s.out with regRdata := v } } ∧
    v.extractLsb' 0 3 = s.dec.phase.code ∧ v.getLsbD 3 = s.cfgErr ∧ v.getLsbD 4 = s.werr ∧ v.getLsbD 5 = s.dec.lvl ∧
    v.extractLsb' 6 2 = 0#2 ∧ v.extractLsb' 8 4 = BitVec.ofNat 4 s.queue.length ∧
    (v.getLsbD 12 = true ↔ s.queue.length = s.params.outqDepth) ∧ v.extractLsb' 13 3 = 0#3 ∧
    v.extractLsb' 16 4 = s.lastEvt.code ∧ v.extractLsb' 20 12 = 0#12) ∧
  (∀ s : State, ∃ v : Word, exec .rdCfg s = .next { s with out := { s.out with regRdata := v } } ∧
    v.getLsbD 0 = s.cfg.bitpol ∧ v.extractLsb' 1 2 = s.cfg.checkMode.code ∧ v.extractLsb' 3 5 = 0#5 ∧
    v.extractLsb' 8 5 = s.cfg.preLen ∧ v.extractLsb' 13 19 = 0#19) ∧
  (∀ t : State, (exec .rdStatus State.reset = .next t → t.out.regRdata = 0x00000000#32) ∧
    (exec .rdCfg State.reset = .next t → t.out.regRdata = 0x00000000#32)) ∧
  (Phase.searching.code = 0#3 ∧ Phase.syncing.code = 1#3 ∧ Phase.collecting.code = 2#3 ∧ Phase.validating.code = 3#3 ∧
    Phase.emit.code = 4#3) ∧
  (Event.none.code = 0#4 ∧ Event.syncLossHigh.code = 1#4 ∧ Event.syncLossLow.code = 2#4 ∧
    Event.preambleMismatch.code = 3#4 ∧ Event.incompleteGap.code = 4#4 ∧ Event.incompleteStreamEnd.code = 5#4 ∧
    Event.overflow.code = 6#4 ∧ Event.checkMismatch.code = 7#4 ∧ Event.configError.code = 8#4 ∧
    Event.packetOk.code = 9#4) ∧
  (CheckMode.none.code = 0#2 ∧ CheckMode.sum8.code = 1#2 ∧ CheckMode.xor8.code = 2#2 ∧ CheckMode.crc8.code = 3#2)

/-- R187, R189, R191, R193, R195, R197: the other configuration registers read back zero-extended, with no side effect. -/
def Obligations.ReadConfigurationRegisters : Prop :=
  (∀ s : State,
    exec .rdTol s = .next { s with out := { s.out with regRdata := s.cfg.tol } } ∧
    exec .rdThresh s = .next { s with out := { s.out with regRdata := s.cfg.thresh } } ∧
    exec .rdShortNom s = .next { s with out := { s.out with regRdata := BitVec.ofNat 32 s.cfg.shortNom.toNat } } ∧
    exec .rdLongNom s = .next { s with out := { s.out with regRdata := BitVec.ofNat 32 s.cfg.longNom.toNat } } ∧
    exec .rdGapMin s = .next { s with out := { s.out with regRdata := BitVec.ofNat 32 s.cfg.gapMin.toNat } } ∧
    exec .rdPreamble s = .next { s with out := { s.out with regRdata := BitVec.ofNat 32 s.cfg.preamble.toNat } }) ∧
  (∀ t : State,
    (exec .rdTol State.reset = .next t → t.out.regRdata = 0x00004000#32) ∧
    (exec .rdShortNom State.reset = .next t → t.out.regRdata = 0x00000004#32) ∧
    (exec .rdLongNom State.reset = .next t → t.out.regRdata = 0x00000008#32) ∧
    (exec .rdGapMin State.reset = .next t → t.out.regRdata = 0x00000010#32) ∧
    (exec .rdThresh State.reset = .next t → t.out.regRdata = 0x3F000000#32) ∧
    (exec .rdPreamble State.reset = .next t → t.out.regRdata = 0x00000000#32))

/-- R201 to R205: the counters and ID read back whole, with no side effect; ID is the constant. -/
def Obligations.ReadCountersAndId : Prop :=
  (∀ s : State,
    exec .rdPktCnt s = .next { s with out := { s.out with regRdata := s.cnt.pkt } } ∧
    exec .rdBadCnt s = .next { s with out := { s.out with regRdata := s.cnt.bad } } ∧
    exec .rdSynclossCnt s = .next { s with out := { s.out with regRdata := s.cnt.syncloss } } ∧
    exec .rdDiscardCnt s = .next { s with out := { s.out with regRdata := s.cnt.discard } } ∧
    exec .rdId s = .next { s with out := { s.out with regRdata := 0x4F4F4B01#32 } }) ∧
  (∀ (p : Packet) (t : State),
    (exec .rdPktCnt (push p State.reset) = .next t → t.out.regRdata = 1#32) ∧
    (exec .rdBadCnt (push { p with validCheck := false } State.reset) = .next t → t.out.regRdata = 1#32) ∧
    (exec .rdSynclossCnt State.reset = .next t → t.out.regRdata = 0#32) ∧
    (exec .rdDiscardCnt (abort .incompleteStreamEnd State.reset) = .next t → t.out.regRdata = 1#32))

/-- R206, R207, R208: writes to read-only and reserved registers have no effect and set no flag; a reserved address reads 0. -/
def Obligations.ReadOnlyAndReservedRegisters : Prop :=
  ∀ (s : State) (a : Byte) (w : Word),
    exec (.wrRoPktCnt w) s = .next s ∧ exec (.wrRoBadCnt w) s = .next s ∧ exec (.wrRoSynclossCnt w) s = .next s ∧
    exec (.wrRoDiscardCnt w) s = .next s ∧ exec (.wrRoId w) s = .next s ∧
    exec (.rdRsvd a) s = .next { s with out := { s.out with regRdata := 0#32 } } ∧ exec (.wrRsvd a w) s = .next s ∧
    (a ∈ [0x24#8, 0x28#8, 0x2C#8, 0x30#8, 0x34#8] → exec (decodeBus (busOp true a) w) s = .next s) ∧
    (0x38 ≤ a.toNat ∨ a.toNat % 4 ≠ 0 →
      exec (decodeBus (busOp false a) w) s = .next { s with out := { s.out with regRdata := 0#32 } } ∧
      exec (decodeBus (busOp true a) w) s = .next s)

/-- R56: "No register read has a side effect": a cycle with a read ends as the same cycle without it, but for `reg_rdata`. -/
def Obligations.ReadsHaveNoSideEffect : Prop :=
  ∀ (s t u : State) (p : Inputs), p.regSel = true → p.regWr = false → cycle p s = .next t →
    cycle { p with regSel := false } s = .next u →
    t = { u with out := { u.out with regRdata := t.out.regRdata } }

/-! ## Register writes -/

/-- R186: WR_CFG. -/
def Obligations.WriteCfg : Prop :=
  (∀ (s : State) (w : Word), s.en = true → exec (.wrCfg w) s = .next { s with werr := true }) ∧
  (∀ (s : State) (w : Word), s.en = false → ∃ c : ConfigRegs, exec (.wrCfg w) s = .next { s with cfg := c } ∧
    c.bitpol = w.getLsbD 0 ∧ c.checkMode.code = w.extractLsb' 1 2 ∧
    c.preLen.toNat = min (w.extractLsb' 8 5).toNat 16 ∧
    c.tol = s.cfg.tol ∧ c.shortNom = s.cfg.shortNom ∧ c.longNom = s.cfg.longNom ∧ c.gapMin = s.cfg.gapMin ∧
    c.thresh = s.cfg.thresh ∧ c.preamble = s.cfg.preamble) ∧
  (∀ s : State, s.en = false → exec (.wrCfg 0x00000406#32) s =
    .next { s with cfg := { s.cfg with bitpol := false, checkMode := .crc8, preLen := 4#5 } })

/-- R188, R190, R192, R194, R196, R198: the other configuration writes; a NaN threshold makes every level 0, and PREAMBLE bits
at and above PRE_LEN are stored but never compared. -/
def Obligations.WriteConfigurationRegisters : Prop :=
  (∀ th x : Word, isNaN th = true → slice th x = false) ∧
  (∀ (c d : ConfigRegs) (k : BitVec 5), d.preLen = c.preLen → k.toNat < c.preLen.toNat →
    (∀ j : Nat, j < c.preLen.toNat → d.preamble.getLsbD j = c.preamble.getLsbD j) →
    preambleBit d k = preambleBit c k) ∧
  ∀ (s : State) (w : Word),
    (s.en = true → ∀ i ∈ [Instr.wrTol w, .wrShortNom w, .wrLongNom w, .wrGapMin w, .wrThresh w, .wrPreamble w],
      exec i s = .next { s with werr := true }) ∧
    (s.en = false →
      exec (.wrTol w) s = .next { s with cfg := { s.cfg with tol := w } } ∧
      exec (.wrShortNom w) s = .next { s with cfg := { s.cfg with shortNom := BitVec.ofNat 16 w.toNat } } ∧
      exec (.wrLongNom w) s = .next { s with cfg := { s.cfg with longNom := BitVec.ofNat 16 w.toNat } } ∧
      exec (.wrGapMin w) s = .next { s with cfg := { s.cfg with
        gapMin := if w.toNat % 65536 = 0 then 1#16 else BitVec.ofNat 16 w.toNat } } ∧
      exec (.wrThresh w) s = .next { s with cfg := { s.cfg with thresh := w } } ∧
      exec (.wrPreamble w) s = .next { s with cfg := { s.cfg with preamble := BitVec.ofNat 16 w.toNat } })

/-- R182: WR_STATUS clears WERR when bit 4 of the written word is 1, and does nothing else. -/
def Obligations.WriteStatus : Prop :=
  ∀ (s : State) (w : Word),
    exec (.wrStatus w) s = .next { s with werr := s.werr && !w.getLsbD 4 }

/-- R175, R176, R178: WR_CTRL, every field of the state. -/
def Obligations.WriteControl : Prop :=
  ∀ (s : State) (w : Word), ∃ t, exec (.wrCtrl w) s = .next t ∧
    (t.en = true ↔ w.getLsbD 0 = true ∧ (s.en = true ∨ (0 < s.cfg.tol.toNat ∧ s.cfg.tol.toNat < 0x10000))) ∧
    (t.cfgErr = if w.getLsbD 0 = true ∧ s.en = false then
        !(decide (0 < s.cfg.tol.toNat) && decide (s.cfg.tol.toNat < 0x10000)) else s.cfgErr) ∧
    (t.lastEvt = if w.getLsbD 0 = true ∧ s.en = false ∧ ¬ (0 < s.cfg.tol.toNat ∧ s.cfg.tol.toNat < 0x10000) then
        .configError else s.lastEvt) ∧
    (t.dec = if (w.getLsbD 0 = false ∧ s.en = true) ∨ w.getLsbD 1 = true then Decoder.reset else s.dec) ∧
    (t.cnt = if w.getLsbD 2 = true then { pkt := 0#32, bad := 0#32, syncloss := 0#32, discard := 0#32 } else s.cnt) ∧
    t.params = s.params ∧ t.werr = s.werr ∧ t.cfg = s.cfg ∧ t.buf = s.buf ∧ t.queue = s.queue ∧ t.beat = s.beat ∧
    t.out = s.out ∧ t.host = s.host ∧ t.drawn = s.drawn

/-- R175, R177, R179, R180: a WR_CTRL acts on what its cycle did before it. A disable ends its cycle with the decoder at its
reset state and `s_ready = 0`, and leaves the queue, the counters and the event record as the rest of the cycle made them;
soft reset and counter clear override the rest of the cycle. -/
def Obligations.ControlWriteWinsTheCycle : Prop :=
  ∀ (s t u : State) (p : Inputs), p.rst = false → p.regSel = true → p.regWr = true → p.regAddr = 0x00#8 →
    cycle p s = .next t → cycle { p with regSel := false } s = .next u →
    (s.en = true → p.regWdata.getLsbD 0 = false → p.regWdata.getLsbD 2 = false →
      t = { u with en := false, dec := Decoder.reset } ∧ (driveOutputs t).out.sReady = false) ∧
    (p.regWdata.getLsbD 0 = s.en →
      t = { u with
            dec := if p.regWdata.getLsbD 1 then Decoder.reset else u.dec
            cnt := if p.regWdata.getLsbD 2 then { pkt := 0#32, bad := 0#32, syncloss := 0#32, discard := 0#32 }
                   else u.cnt }) ∧
    (p.regWdata.getLsbD 2 = true → t.cnt = { pkt := 0#32, bad := 0#32, syncloss := 0#32, discard := 0#32 })

/-! ## The Bit Synchronizer -/

/-- R100, R11: `gtF` is the order of the binary32 values: of two words, by sign and magnitude, +0 and -0 being equal. -/
def Obligations.GreaterThanIsNumericOrder : Prop :=
  ∀ x y : Word,
    gtF x y = true ↔
      (if y.getLsbD 31 then -((y.extractLsb' 0 31).toNat : Int) else ((y.extractLsb' 0 31).toNat : Int)) <
      (if x.getLsbD 31 then -((x.extractLsb' 0 31).toNat : Int) else ((x.extractLsb' 0 31).toNat : Int))

/-- R101: the slicer, with its corner cases. -/
def Obligations.SlicerLevel : Prop :=
  (∀ th x : Word, slice th x = true ↔
    ¬ (x.extractLsb' 23 8 = 0xFF#8 ∧ x.extractLsb' 0 23 ≠ 0#23) ∧
    ¬ (th.extractLsb' 23 8 = 0xFF#8 ∧ th.extractLsb' 0 23 ≠ 0#23) ∧ gtF x th = true) ∧
  (∀ th x : Word, isNaN x = true → slice th x = false) ∧
  (∀ th x : Word, isNaN th = true → slice th x = false) ∧
  (∀ x : Word, slice x x = false) ∧
  (slice 0x3F000000#32 0x3F333333#32 = true ∧ slice 0x3F000000#32 0x3F000000#32 = false) ∧
  (∀ (s t : State) (x : Word), isNaN s.cfg.thresh = true → s.dec.phase = .searching → exec (.sample x) s = .next t →
    t.dec.phase = .searching)

/-- R104: the window is the closed interval [N(1-t), N(1+t)], t = TOL / 65536, over the rationals, with its corner cases. -/
def Obligations.WindowIsClosedInterval : Prop :=
  (∀ (tol : Word) (l n : Half), inWin tol l n = true ↔
    (n.toNat : ℚ) * (1 - (tol.toNat : ℚ) / 65536) ≤ l.toNat ∧
    (l.toNat : ℚ) ≤ (n.toNat : ℚ) * (1 + (tol.toNat : ℚ) / 65536)) ∧
  (∀ (tol : Word) (l : Half), 1 ≤ l.toNat → inWin tol l 0#16 = false) ∧
  (∀ (tol : Word) (n : Half), inWin tol n n = true) ∧
  (∀ l : Half, inWin 0x4000#32 l 4#16 = true ↔ 3 ≤ l.toNat ∧ l.toNat ≤ 5) ∧
  (∀ (tol : Word) (l n : Half), tol.toNat < 65536 →
    0 < 65536 - (tol.toNat : Int) ∧ n.toNat * (65536 + tol.toNat) < 2 ^ 33 ∧ l.toNat * 65536 < 2 ^ 33)

/-- R105: SHORT is tested first, then LONG; the classes of the reset configuration. -/
def Obligations.ShortIsTestedFirst : Prop :=
  (∀ (c : ConfigRegs) (l : Half),
    (classify c l = .short ↔ inWin c.tol l c.shortNom = true) ∧
    (classify c l = .long ↔ inWin c.tol l c.shortNom = false ∧ inWin c.tol l c.longNom = true) ∧
    (classify c l = .none ↔ inWin c.tol l c.shortNom = false ∧ inWin c.tol l c.longNom = false)) ∧
  (∀ l : Half,
    (classify ConfigRegs.reset l = .short ↔ 3 ≤ l.toNat ∧ l.toNat ≤ 5) ∧
    (classify ConfigRegs.reset l = .long ↔ 6 ≤ l.toNat ∧ l.toNat ≤ 10) ∧
    (classify ConfigRegs.reset l = .none ↔ l.toNat ≤ 2 ∨ 11 ≤ l.toNat))

/-- R107: when a gap is reached: in a run of lows exactly at GAP_MIN samples and never again, on a falling edge only with
GAP_MIN = 1, on a high sample never. -/
def Obligations.GapIsReachedOnce : Prop :=
  ∀ (c : ConfigRegs) (run : Half),
    (∀ (edge : Bool) (old : Bool), gapHit c true (nextRun edge run) old run = false) ∧
    (gapHit c false (nextRun true run) true run = true ↔ c.gapMin = 1#16) ∧
    (gapHit c false (nextRun false run) false run = true ↔ run.toNat + 1 = c.gapMin.toNat)

/-- R102, R103, R108, R136: what SAMPLE and SAMPLE_LAST do to the line tracker, in every ready state, and what they leave
alone. -/
def Obligations.SampleTracksTheLine : Prop :=
  ∀ (s : State) (x : Word), sReady s = true →
    (∃ t, exec (.sample x) s = .next t ∧ SameControl s t ∧ t.dec.lvl = slice s.cfg.thresh x ∧
      t.dec.run.toNat = if slice s.cfg.thresh x = s.dec.lvl then min (s.dec.run.toNat + 1) 65535 else 1) ∧
    (∃ t, exec (.sampleLast x) s = .next t ∧ SameControl s t ∧ t.dec.lvl = false ∧ t.dec.run = 0xFFFF#16)

/-- R102: samples of the line's own level in SEARCHING only lengthen the run, which saturates; "a constant input ... raises no
event". -/
def Obligations.ConstantInputOnlyCounts : Prop :=
  ∀ (n : Nat) (s : State) (x : Word), sReady s = true → s.dec.phase = .searching →
    slice s.cfg.thresh x = s.dec.lvl →
    execList (List.replicate n (.sample x)) s =
      .next { s with dec := { s.dec with run := BitVec.ofNat 16 (min (s.dec.run.toNat + n) 65535) } }

/-- R121, R122, R123: SAMPLE on a rising edge. In SEARCHING a low run of at least GAP_MIN opens a frame; inside a frame a low
interval out of both windows aborts it with SYNC_LOSS_LOW and any other changes nothing. -/
def Obligations.SampleOnRisingEdge : Prop :=
  ∀ (s : State) (x : Word), sReady s = true → s.dec.lvl = false → slice s.cfg.thresh x = true →
    (s.dec.phase = .searching → s.cfg.gapMin.toNat ≤ s.dec.run.toNat →
      exec (.sample x) s = .next { s with dec := {
        lvl := true, run := 1#16, phase := if s.cfg.preLen = 0#5 then .collecting else .syncing, preCnt := 0#5,
        bitTotal := 0#16, cur := 0#8, nbits := 0#4, nbytes := 0#8, pend := s.dec.pend } }) ∧
    (s.dec.phase = .searching → s.dec.run.toNat < s.cfg.gapMin.toNat →
      exec (.sample x) s = .next { s with dec := { s.dec with lvl := true, run := 1#16 } }) ∧
    (s.dec.phase.isOpen = true → classify s.cfg s.dec.run = .none →
      exec (.sample x) s = .next { s with
        dec := { s.dec with lvl := true, run := 1#16, phase := .searching }
        cnt := { s.cnt with discard := s.cnt.discard + 1#32, syncloss := s.cnt.syncloss + 1#32 }
        lastEvt := .syncLossLow }) ∧
    (s.dec.phase.isOpen = true → classify s.cfg s.dec.run ≠ .none →
      exec (.sample x) s = .next { s with dec := { s.dec with lvl := true, run := 1#16 } })

/-- R124, R106, R108: SAMPLE on a falling edge. In SEARCHING only the line tracker changes; inside a frame a high interval out
of both windows aborts with SYNC_LOSS_HIGH, and any other pushes its bit, before the gap that GAP_MIN = 1 makes of the edge. -/
def Obligations.SampleOnFallingEdge : Prop :=
  ∀ (s : State) (x : Word), sReady s = true → s.dec.lvl = true → slice s.cfg.thresh x = false →
    (s.dec.phase = .searching →
      exec (.sample x) s = .next { s with dec := { s.dec with lvl := false, run := 1#16 } }) ∧
    (s.dec.phase.isOpen = true → classify s.cfg s.dec.run = .none →
      exec (.sample x) s = .next { s with
        dec := { s.dec with lvl := false, run := 1#16, phase := .searching }
        cnt := { s.cnt with discard := s.cnt.discard + 1#32, syncloss := s.cnt.syncloss + 1#32 }
        lastEvt := .syncLossHigh }) ∧
    (s.dec.phase.isOpen = true → classify s.cfg s.dec.run ≠ .none →
      ∃ b : Bool, b = (if classify s.cfg s.dec.run = .long then !s.cfg.bitpol else s.cfg.bitpol) ∧
      ∃ u : State, u = { pushBit b s with dec := { (pushBit b s).dec with lvl := false, run := 1#16 } } ∧
        exec (.sample x) s = .next (if s.cfg.gapMin = 1#16 then gapReached u else u))

/-- R102, R107, R108: SAMPLE without an edge lengthens the run; a low run that so reaches GAP_MIN reaches a gap. -/
def Obligations.SampleInsideARun : Prop :=
  ∀ (s : State) (x : Word), sReady s = true → slice s.cfg.thresh x = s.dec.lvl →
    ∃ u : State, u = { s with dec := { s.dec with run := BitVec.ofNat 16 (min (s.dec.run.toNat + 1) 65535) } } ∧
      exec (.sample x) s =
        .next (if s.dec.lvl = false ∧ s.dec.run.toNat + 1 = s.cfg.gapMin.toNat then gapReached u else u)

/-! ## The Framer -/

/-- R125, R126: a bit in COLLECTING: most significant bit first, a byte at the eighth, OVERFLOW when the buffer is full. -/
def Obligations.PayloadBits : Prop :=
  ∀ (s : State) (b : Bool), s.dec.phase = .collecting → s.dec.nbits.toNat ≤ 7 →
    ∃ c : Byte, c.toNat = (2 * s.dec.cur.toNat + b.toNat) % 256 ∧
    (s.dec.nbits.toNat < 7 → pushBit b s = { s with dec := { s.dec with
      bitTotal := s.dec.bitTotal + 1#16, cur := c, nbits := s.dec.nbits + 1#4 } }) ∧
    (s.dec.nbits.toNat = 7 → s.dec.nbytes.toNat ≠ s.params.maxBytes → pushBit b s = { s with
      buf := s.buf.set s.dec.nbytes.toNat c
      dec := { s.dec with
        bitTotal := s.dec.bitTotal + 1#16, nbytes := s.dec.nbytes + 1#8, cur := 0#8, nbits := 0#4 } }) ∧
    (s.dec.nbits.toNat = 7 → s.dec.nbytes.toNat = s.params.maxBytes → pushBit b s = { s with
      dec := { s.dec with bitTotal := s.dec.bitTotal + 1#16, cur := c, nbits := 8#4, phase := .searching }
      cnt := { s.cnt with discard := s.cnt.discard + 1#32 }
      lastEvt := .overflow })

/-- R125, R54: eight bits pushed most significant first make their byte, at the next place of the buffer. -/
def Obligations.EightBitsMakeAByte : Prop :=
  ∀ (s : State) (y : Byte), s.dec.phase = .collecting → s.dec.nbits = 0#4 → s.dec.cur = 0#8 →
    s.dec.nbytes.toNat < s.params.maxBytes →
    [y.getLsbD 7, y.getLsbD 6, y.getLsbD 5, y.getLsbD 4, y.getLsbD 3, y.getLsbD 2, y.getLsbD 1, y.getLsbD 0].foldl
        (fun t b => pushBit b t) s =
      { s with
        buf := s.buf.set s.dec.nbytes.toNat y
        dec := { s.dec with bitTotal := s.dec.bitTotal + 8#16, nbytes := s.dec.nbytes + 1#8 } }

/-- R127, R128: a bit in SYNCING is compared with its preamble bit; the last match opens COLLECTING, a mismatch aborts. -/
def Obligations.PreambleBits : Prop :=
  ∀ (s : State) (b : Bool), s.dec.phase = .syncing → s.dec.preCnt.toNat < s.cfg.preLen.toNat →
    (b = s.cfg.preamble.getLsbD (s.cfg.preLen.toNat - 1 - s.dec.preCnt.toNat) →
      pushBit b s = { s with dec := { s.dec with
        bitTotal := s.dec.bitTotal + 1#16, preCnt := s.dec.preCnt + 1#5
        phase := if s.dec.preCnt.toNat + 1 = s.cfg.preLen.toNat then .collecting else .syncing } }) ∧
    (b ≠ s.cfg.preamble.getLsbD (s.cfg.preLen.toNat - 1 - s.dec.preCnt.toNat) →
      pushBit b s = { s with
        dec := { s.dec with bitTotal := s.dec.bitTotal + 1#16, phase := .searching }
        cnt := { s.cnt with discard := s.cnt.discard + 1#32 }
        lastEvt := .preambleMismatch })

/-- R129: what a gap does, by the phase: an unfinished frame is discarded with INCOMPLETE_GAP, a whole one completes. -/
def Obligations.GapClosesTheFrame : Prop :=
  ∀ s : State,
    (s.dec.phase = .searching → gapReached s = s) ∧
    (s.dec.phase = .syncing ∨ (s.dec.phase = .collecting ∧ (s.dec.nbits ≠ 0#4 ∨ s.dec.nbytes = 0#8)) →
      gapReached s = { s with
        dec := { s.dec with phase := .searching }
        cnt := { s.cnt with discard := s.cnt.discard + 1#32 }
        lastEvt := .incompleteGap }) ∧
    (s.dec.phase = .collecting → s.dec.nbits = 0#4 → s.dec.nbytes ≠ 0#8 → gapReached s = completeFrame s)

/-- R130, R160, R161, R156: a completed frame's packet is pushed with its counters and event, whatever its check, or waits in
EMIT while the queue is full. -/
def Obligations.CompletedFrameIsEmitted : Prop :=
  ∀ s : State, ∃ p : Packet, p.data = s.buf.take s.dec.nbytes.toNat ∧ p.bitCount = s.dec.bitTotal ∧
    p.validCheck = validCheck s.cfg.checkMode p.data ∧
    (s.queue.length < s.params.outqDepth → completeFrame s = { s with
      dec := { s.dec with phase := .searching }
      queue := s.queue ++ [p]
      cnt := { s.cnt with
        pkt := s.cnt.pkt + 1#32, bad := if p.validCheck then s.cnt.bad else s.cnt.bad + 1#32 }
      lastEvt := if p.validCheck then .packetOk else .checkMismatch }) ∧
    (s.params.outqDepth ≤ s.queue.length → completeFrame s = { s with
      dec := { s.dec with phase := .emit, pend := some p } })

/-- R136: SAMPLE_LAST is SAMPLE and then the stream end: an open frame is discarded with INCOMPLETE_STREAM_END, and the line
tracker starts anew. -/
def Obligations.StreamEndClosesTheStream : Prop :=
  ∀ (s t : State) (x : Word), sReady s = true → exec (.sample x) s = .next t →
    (t.dec.phase.isOpen = true → exec (.sampleLast x) s = .next { t with
      dec := { t.dec with phase := .searching, lvl := false, run := 0xFFFF#16 }
      cnt := { t.cnt with discard := t.cnt.discard + 1#32 }
      lastEvt := .incompleteStreamEnd }) ∧
    (t.dec.phase.isOpen = false → exec (.sampleLast x) s = .next { t with
      dec := { t.dec with lvl := false, run := 0xFFFF#16 } })

/-- R120, R222: the phases a cycle may lead from and to, in states that meet the invariant; VALIDATING is never held. -/
def Obligations.PhaseTransitions : Prop :=
  ∀ s t : State, State.Inv s → step s = .next t →
    (s.dec.phase = .searching → t.dec.phase ∈ [Phase.searching, .syncing, .collecting]) ∧
    (s.dec.phase = .syncing → t.dec.phase ∈ [Phase.searching, .syncing, .collecting]) ∧
    (s.dec.phase = .collecting → t.dec.phase ∈ [Phase.searching, .collecting, .emit]) ∧
    (s.dec.phase = .emit → t.dec.phase ∈ [Phase.searching, .emit])

/-- R133: a frame opens only at a rising edge after a low run of at least GAP_MIN samples. -/
def Obligations.FrameNeedsAGap : Prop :=
  ∀ s t : State, s.dec.phase = .searching → step s = .next t → t.dec.phase.isOpen = true →
    s.dec.lvl = false ∧ s.cfg.gapMin.toNat ≤ s.dec.run.toNat ∧ t.dec.lvl = true ∧ t.dec.run = 1#16 ∧
      t.dec.bitTotal = 0#16 ∧ t.dec.nbytes = 0#8

/-! ## Events and packets -/

/-- R220, R224, R225: a cycle without `rst` records at most one event, with the counters of its code. In a cycle with a
WR_CTRL, either the event is that of the rest of the cycle, or it is CONFIG_ERROR and the rest of the cycle recorded none; the
counters are those of the rest of the cycle, or cleared by CLRCNT. -/
def Obligations.AtMostOneEventPerCycle : Prop :=
  (∀ (s t : State) (p : Inputs), p.rst = false → ¬ (p.regSel = true ∧ p.regWr = true ∧ p.regAddr = 0x00#8) →
    cycle p s = .next t → EventDelta s t) ∧
  (∀ (s t u : State) (p : Inputs), State.Inv s → p.rst = false → p.regSel = true → p.regWr = true → p.regAddr = 0x00#8 →
    cycle p s = .next t → cycle { p with regSel := false } s = .next u →
    EventDelta s u ∧
    (t.cnt = if p.regWdata.getLsbD 2 then { pkt := 0#32, bad := 0#32, syncloss := 0#32, discard := 0#32 } else u.cnt) ∧
    (if p.regWdata.getLsbD 0 = true ∧ s.en = false ∧ ¬ (0 < s.cfg.tol.toNat ∧ s.cfg.tol.toNat < 0x10000) then
      t.lastEvt = .configError ∧ u.lastEvt = s.lastEvt ∧ u.cnt = s.cnt
    else t.lastEvt = u.lastEvt))

/-- R59, R60, R163, R229: a cycle without `rst` takes at most the head from the queue, at its last beat, and adds at most one
packet at the tail, counted once; no record changes. -/
def Obligations.QueueIsFirstInFirstOut : Prop :=
  ∀ (s t : State) (p : Inputs), p.rst = false → cycle p s = .next t →
    ∃ new : List Packet, new.length ≤ 1 ∧
      (t.queue = s.queue ++ new ∨
        (p.mReady = true ∧ ∃ h rest, s.queue = h :: rest ∧ s.beat.toNat = h.data.length ∧ t.queue = rest ++ new ∧
          t.beat = 0#8)) ∧
      (¬ (p.regSel = true ∧ p.regWr = true ∧ p.regAddr = 0x00#8) →
        t.cnt.pkt = s.cnt.pkt + BitVec.ofNat 32 new.length)

/-- R131, R137: a packet that a cycle adds to the queue has 1 to MAX_BYTES bytes and `PRE_LEN + 8 * len(data)` bits, PRE_LEN
being the one in force. -/
def Obligations.EmittedPacketShape : Prop :=
  ∀ (s t : State) (p : Inputs), State.Inv s → p.rst = false → cycle p s = .next t →
    ∃ new : List Packet, new.length ≤ 1 ∧ (t.queue = s.queue ++ new ∨ t.queue = s.queue.drop 1 ++ new) ∧
      t.queue.length ≤ s.params.outqDepth ∧
      ∀ q ∈ new, 1 ≤ q.data.length ∧ q.data.length ≤ s.params.maxBytes ∧
        q.bitCount.toNat = s.cfg.preLen.toNat + 8 * q.data.length

/-- R166: BEAT. -/
def Obligations.BeatStepEffect : Prop :=
  ∀ s : State,
    (s.queue = [] → exec .beat s = .next s) ∧
    (∀ (h : Packet) (rest : List Packet), s.queue = h :: rest →
      (s.beat.toNat = h.data.length → exec .beat s = .next { s with queue := rest, beat := 0#8 }) ∧
      (s.beat.toNat < h.data.length → s.beat.toNat < 255 →
        ∃ b : Byte, b.toNat = s.beat.toNat + 1 ∧ exec .beat s = .next { s with beat := b }))

/-- R161: in EMIT with the queue still full after the output step, a cycle without register write or reset leaves the whole
decoder state, the queue's packets but for the beat index, the counters and the event record as they are. -/
def Obligations.EmitStallsTheSamplePort : Prop :=
  ∀ (s t : State) (p : Inputs) (h : Packet) (rest : List Packet), s.dec.phase = .emit →
    s.queue = h :: rest → s.params.outqDepth ≤ s.queue.length →
    (p.mReady = false ∨ s.beat.toNat ≠ h.data.length) →
    p.rst = false → (p.regSel = false ∨ p.regWr = false) → cycle p s = .next t →
    t.dec = s.dec ∧ t.queue = s.queue ∧ t.cnt = s.cnt ∧ t.lastEvt = s.lastEvt ∧ t.out.sReady = false

/-- R162: in EMIT the pending packet is pushed in the cycle in which the head's last beat transfers. -/
def Obligations.EmitRetryPushesPending : Prop :=
  ∀ (s t : State) (p : Inputs) (h q : Packet) (rest : List Packet), s.dec.phase = .emit → s.dec.pend = some q →
    s.queue = h :: rest → rest.length < s.params.outqDepth → s.beat.toNat = h.data.length → p.mReady = true →
    p.rst = false → p.regSel = false → cycle p s = .next t →
    t.queue = rest ++ [q] ∧ t.beat = 0#8 ∧ t.dec.phase = .searching ∧
      t.cnt = { s.cnt with
        pkt := s.cnt.pkt + 1#32, bad := if q.validCheck then s.cnt.bad else s.cnt.bad + 1#32 } ∧
      t.lastEvt = (if q.validCheck then .packetOk else .checkMismatch) ∧
      (s.en = true → (driveOutputs t).out.sReady = true)

/-- R222, R162: if the consumer takes a beat in every cycle and the host does nothing else, EMIT lasts until the head packet is
transmitted, through every cycle before its last beat, and ends with that beat. -/
def Obligations.EmitEndsWhenHeadIsDrained : Prop :=
  ∀ (n : Nat) (s : State) (h q : Packet) (rest : List Packet) (later : List Drive),
    s.dec.phase = .emit → s.dec.pend = some q → s.queue = h :: rest → s.queue.length = s.params.outqDepth →
    s.beat.toNat + n = h.data.length → h.data.length ≤ 255 →
    s.host = List.replicate (n + 1) { inputs := { Inputs.idle with mReady := true }, hold := false } ++ later →
    (∀ k : Nat, k ≤ n → ∃ u, runCycles k s = .next u ∧ u.dec = s.dec ∧ u.queue = s.queue ∧
      u.beat.toNat = s.beat.toNat + k ∧ (driveOutputs u).out.sReady = false) ∧
    ∃ t, runCycles (n + 1) s = .next t ∧ t.dec.phase = .searching ∧ t.queue = rest ++ [q] ∧ t.host = later

/-- R164, R165: a packet leaves as its header and then its data bytes in order, one beat a cycle. -/
def Obligations.PacketLeavesInOrder : Prop :=
  ∀ (k : Nat) (s : State) (h : Packet) (rest : List Packet) (later : List Drive),
    s.dec.phase ≠ .emit → s.queue = h :: rest → s.beat = 0#8 → k ≤ h.data.length → h.data.length ≤ 255 →
    s.host = List.replicate (k + 1) { inputs := { Inputs.idle with mReady := true }, hold := false } ++ later →
    ∃ t, runCycles (k + 1) s = .next t ∧ t.out.mValid = true ∧ (packetBeats h)[k]? = some t.out.mData ∧
      (t.out.mHdr = true ↔ k = 0) ∧ (t.out.mLast = true ↔ k = h.data.length) ∧
      (k = h.data.length → t.queue = rest)

/-! ## The Validator -/

/-- R150 to R153, R155: the check modes NONE, SUM8 and XOR8 on a frame whose last byte is `c`; the dispatch on the value 0 to 3
of CHECK_MODE, each of which is the code of a mode; R150's example. -/
def Obligations.ChecksumTrailer : Prop :=
  (∀ (m : CheckMode) (d : List Byte) (c : Byte),
    (m.code = 0#2 → validCheck m (d ++ [c]) = true) ∧
    (m.code = 1#2 → (validCheck m (d ++ [c]) = true ↔ (d.map BitVec.toNat).sum % 256 = c.toNat)) ∧
    (m.code = 2#2 → (validCheck m (d ++ [c]) = true ↔ d.foldl (fun a b => a ^^^ b) 0#8 = c)) ∧
    (m.code = 3#2 → (validCheck m (d ++ [c]) = true ↔ crc8 d = c))) ∧
  (∀ b : BitVec 2, (CheckMode.ofCode b).code = b) ∧
  (∀ m : CheckMode, validCheck m [0x00#8, 0x00#8] = true) ∧
  ∀ (d : List Byte) (c : Byte),
    validCheck .none (d ++ [c]) = true ∧
    (validCheck .sum8 (d ++ [c]) = true ↔ (d.map BitVec.toNat).sum % 256 = c.toNat) ∧
    (validCheck .xor8 (d ++ [c]) = true ↔ (d ++ [c]).foldl (fun a b => a ^^^ b) 0#8 = 0#8) ∧
    (validCheck .crc8 (d ++ [c]) = true ↔ crc8 d = c)

/-- R154: a frame passes CRC8 exactly when the CRC of all its bytes, the trailer among them, is 0; the polynomial, and the
rule's own example. -/
def Obligations.CrcOfPassingFrameIsZero : Prop :=
  (∀ d : List Byte, d ≠ [] → (validCheck .crc8 d = true ↔ crc8 d = 0#8)) ∧
  (∀ d e : List Byte, d.length = e.length → crc8 (List.zipWith (· ^^^ ·) d e) = crc8 d ^^^ crc8 e) ∧
  crc8 [0x01#8] = 0x07#8 ∧ crc8 [0x12#8, 0x34#8] = 0xF1#8

/-! ## What cannot be told apart -/

/-- R26 (U1): frame-buffer bytes at or above `nbytes` never matter: two states that differ in them only step to two states
that differ in them only. -/
def Obligations.StaleBufferBytesNeverMatter : Prop :=
  ∀ s t s' t' : State, sameButStaleBytes s t → step s = .next s' → step t = .next t' → sameButStaleBytes s' t'

/-- R167: the queue and the beat index after a cycle without `rst` that accepts no sample and retries no packet depend on
nothing but the queue, the beat index and `m_ready`; enabling, disabling and soft reset do not touch them. -/
def Obligations.TransmissionIsIndependent : Prop :=
  ∀ (s t : State) (p : Inputs), p.rst = false → s.dec.phase ≠ .emit → (p.sValid = false ∨ s.en = false) →
    cycle p s = .next t →
    t.queue = (if p.mReady then (beatStep s).queue else s.queue) ∧
      t.beat = (if p.mReady then (beatStep s).beat else s.beat)

/-! ## Round trip -/

/-- The round trip of 95_test_vectors.md section 1.4: a `FRAME` of the test encoder (R83), offered one sample a cycle after a
gap, decodes to the packet of its bytes, at every legal tolerance and under any legal configuration whose widths are below
GAP_MIN and whose windows keep SHORT and LONG apart. The line ends in a gap, so the next frame may follow. -/
def Obligations.FrameRoundTrip : Prop :=
  ∀ (s : State) (d : List Byte) (later : List Drive), State.Inv s → s.en = true → s.dec.phase = .searching →
    s.dec.lvl = false → s.cfg.gapMin.toNat ≤ s.dec.run.toNat →
    slice s.cfg.thresh 0x3F800000#32 = true → slice s.cfg.thresh 0x00000000#32 = false →
    1 ≤ s.cfg.shortNom.toNat → s.cfg.shortNom.toNat < s.cfg.gapMin.toNat →
    1 ≤ s.cfg.longNom.toNat → s.cfg.longNom.toNat < s.cfg.gapMin.toNat →
    (∀ l : Half, ¬ (inWin s.cfg.tol l s.cfg.shortNom = true ∧ inWin s.cfg.tol l s.cfg.longNom = true)) →
    1 ≤ d.length → d.length ≤ s.params.maxBytes → s.queue.length < s.params.outqDepth →
    s.host = programDrives (encodeFrame s.cfg d) ++ later →
    ∃ (t : State) (p : Packet), runCycles (programDrives (encodeFrame s.cfg d)).length s = .next t ∧
      p.data = d ∧ p.bitCount.toNat = s.cfg.preLen.toNat + 8 * d.length ∧
      p.validCheck = validCheck s.cfg.checkMode d ∧ t.queue = s.queue ++ [p] ∧ t.host = later ∧
      t.cnt = { s.cnt with pkt := s.cnt.pkt + 1#32, bad := if p.validCheck then s.cnt.bad else s.cnt.bad + 1#32 } ∧
      t.lastEvt = (if p.validCheck then .packetOk else .checkMismatch) ∧ t.en = true ∧ t.cfg = s.cfg ∧
      t.dec.phase = .searching ∧ t.dec.lvl = false ∧ s.cfg.gapMin.toNat ≤ t.dec.run.toNat
end

