-- ==== Sys2Proof/Laws/State.lean ====
section
/-! SUPPORT. What each unconditional state update does to each field, true by unfolding it once. -/

namespace Sys2Proof.Machine

/-! ## readReg -/

@[simp] theorem readReg_params (v : Word) (s : State) : (readReg v s).params = s.params := rfl
@[simp] theorem readReg_en (v : Word) (s : State) : (readReg v s).en = s.en := rfl
@[simp] theorem readReg_cfgErr (v : Word) (s : State) : (readReg v s).cfgErr = s.cfgErr := rfl
@[simp] theorem readReg_werr (v : Word) (s : State) : (readReg v s).werr = s.werr := rfl
@[simp] theorem readReg_lastEvt (v : Word) (s : State) : (readReg v s).lastEvt = s.lastEvt := rfl
@[simp] theorem readReg_cfg (v : Word) (s : State) : (readReg v s).cfg = s.cfg := rfl
@[simp] theorem readReg_cnt (v : Word) (s : State) : (readReg v s).cnt = s.cnt := rfl
@[simp] theorem readReg_dec (v : Word) (s : State) : (readReg v s).dec = s.dec := rfl
@[simp] theorem readReg_buf (v : Word) (s : State) : (readReg v s).buf = s.buf := rfl
@[simp] theorem readReg_queue (v : Word) (s : State) : (readReg v s).queue = s.queue := rfl
@[simp] theorem readReg_beat (v : Word) (s : State) : (readReg v s).beat = s.beat := rfl
@[simp] theorem readReg_out (v : Word) (s : State) : (readReg v s).out = { s.out with regRdata := v } := rfl
@[simp] theorem readReg_host (v : Word) (s : State) : (readReg v s).host = s.host := rfl
@[simp] theorem readReg_drawn (v : Word) (s : State) : (readReg v s).drawn = s.drawn := rfl

/-! ## driveOutputs -/

@[simp] theorem driveOutputs_params (s : State) : (driveOutputs s).params = s.params := rfl
@[simp] theorem driveOutputs_en (s : State) : (driveOutputs s).en = s.en := rfl
@[simp] theorem driveOutputs_cfgErr (s : State) : (driveOutputs s).cfgErr = s.cfgErr := rfl
@[simp] theorem driveOutputs_werr (s : State) : (driveOutputs s).werr = s.werr := rfl
@[simp] theorem driveOutputs_lastEvt (s : State) : (driveOutputs s).lastEvt = s.lastEvt := rfl
@[simp] theorem driveOutputs_cfg (s : State) : (driveOutputs s).cfg = s.cfg := rfl
@[simp] theorem driveOutputs_cnt (s : State) : (driveOutputs s).cnt = s.cnt := rfl
@[simp] theorem driveOutputs_dec (s : State) : (driveOutputs s).dec = s.dec := rfl
@[simp] theorem driveOutputs_buf (s : State) : (driveOutputs s).buf = s.buf := rfl
@[simp] theorem driveOutputs_queue (s : State) : (driveOutputs s).queue = s.queue := rfl
@[simp] theorem driveOutputs_beat (s : State) : (driveOutputs s).beat = s.beat := rfl
@[simp] theorem driveOutputs_out (s : State) : (driveOutputs s).out = stateOutputs s := rfl
@[simp] theorem driveOutputs_host (s : State) : (driveOutputs s).host = s.host := rfl
@[simp] theorem driveOutputs_drawn (s : State) : (driveOutputs s).drawn = s.drawn := rfl

/-! ## setPhase -/

@[simp] theorem setPhase_params (ph : Phase) (s : State) : (setPhase ph s).params = s.params := rfl
@[simp] theorem setPhase_en (ph : Phase) (s : State) : (setPhase ph s).en = s.en := rfl
@[simp] theorem setPhase_cfgErr (ph : Phase) (s : State) : (setPhase ph s).cfgErr = s.cfgErr := rfl
@[simp] theorem setPhase_werr (ph : Phase) (s : State) : (setPhase ph s).werr = s.werr := rfl
@[simp] theorem setPhase_lastEvt (ph : Phase) (s : State) : (setPhase ph s).lastEvt = s.lastEvt := rfl
@[simp] theorem setPhase_cfg (ph : Phase) (s : State) : (setPhase ph s).cfg = s.cfg := rfl
@[simp] theorem setPhase_cnt (ph : Phase) (s : State) : (setPhase ph s).cnt = s.cnt := rfl
@[simp] theorem setPhase_dec (ph : Phase) (s : State) : (setPhase ph s).dec = { s.dec with phase := ph } := rfl
@[simp] theorem setPhase_buf (ph : Phase) (s : State) : (setPhase ph s).buf = s.buf := rfl
@[simp] theorem setPhase_queue (ph : Phase) (s : State) : (setPhase ph s).queue = s.queue := rfl
@[simp] theorem setPhase_beat (ph : Phase) (s : State) : (setPhase ph s).beat = s.beat := rfl
@[simp] theorem setPhase_out (ph : Phase) (s : State) : (setPhase ph s).out = s.out := rfl
@[simp] theorem setPhase_host (ph : Phase) (s : State) : (setPhase ph s).host = s.host := rfl
@[simp] theorem setPhase_drawn (ph : Phase) (s : State) : (setPhase ph s).drawn = s.drawn := rfl

/-! ## setLine -/

@[simp] theorem setLine_params (v : Bool) (r : Half) (s : State) : (setLine v r s).params = s.params := rfl
@[simp] theorem setLine_en (v : Bool) (r : Half) (s : State) : (setLine v r s).en = s.en := rfl
@[simp] theorem setLine_cfgErr (v : Bool) (r : Half) (s : State) : (setLine v r s).cfgErr = s.cfgErr := rfl
@[simp] theorem setLine_werr (v : Bool) (r : Half) (s : State) : (setLine v r s).werr = s.werr := rfl
@[simp] theorem setLine_lastEvt (v : Bool) (r : Half) (s : State) : (setLine v r s).lastEvt = s.lastEvt := rfl
@[simp] theorem setLine_cfg (v : Bool) (r : Half) (s : State) : (setLine v r s).cfg = s.cfg := rfl
@[simp] theorem setLine_cnt (v : Bool) (r : Half) (s : State) : (setLine v r s).cnt = s.cnt := rfl
@[simp] theorem setLine_dec (v : Bool) (r : Half) (s : State) : (setLine v r s).dec = { s.dec with lvl := v, run := r } := rfl
@[simp] theorem setLine_buf (v : Bool) (r : Half) (s : State) : (setLine v r s).buf = s.buf := rfl
@[simp] theorem setLine_queue (v : Bool) (r : Half) (s : State) : (setLine v r s).queue = s.queue := rfl
@[simp] theorem setLine_beat (v : Bool) (r : Half) (s : State) : (setLine v r s).beat = s.beat := rfl
@[simp] theorem setLine_out (v : Bool) (r : Half) (s : State) : (setLine v r s).out = s.out := rfl
@[simp] theorem setLine_host (v : Bool) (r : Half) (s : State) : (setLine v r s).host = s.host := rfl
@[simp] theorem setLine_drawn (v : Bool) (r : Half) (s : State) : (setLine v r s).drawn = s.drawn := rfl

/-! ## abort -/

@[simp] theorem abort_params (e : Event) (s : State) : (abort e s).params = s.params := rfl
@[simp] theorem abort_en (e : Event) (s : State) : (abort e s).en = s.en := rfl
@[simp] theorem abort_cfgErr (e : Event) (s : State) : (abort e s).cfgErr = s.cfgErr := rfl
@[simp] theorem abort_werr (e : Event) (s : State) : (abort e s).werr = s.werr := rfl
@[simp] theorem abort_lastEvt (e : Event) (s : State) : (abort e s).lastEvt = e := rfl
@[simp] theorem abort_cfg (e : Event) (s : State) : (abort e s).cfg = s.cfg := rfl
@[simp] theorem abort_cnt (e : Event) (s : State) :
    (abort e s).cnt = { s.cnt with
      discard := s.cnt.discard + 1#32
      syncloss := if isSyncLoss e then s.cnt.syncloss + 1#32 else s.cnt.syncloss } :=
  rfl
@[simp] theorem abort_dec (e : Event) (s : State) : (abort e s).dec = { s.dec with phase := .searching } := rfl
@[simp] theorem abort_buf (e : Event) (s : State) : (abort e s).buf = s.buf := rfl
@[simp] theorem abort_queue (e : Event) (s : State) : (abort e s).queue = s.queue := rfl
@[simp] theorem abort_beat (e : Event) (s : State) : (abort e s).beat = s.beat := rfl
@[simp] theorem abort_out (e : Event) (s : State) : (abort e s).out = s.out := rfl
@[simp] theorem abort_host (e : Event) (s : State) : (abort e s).host = s.host := rfl
@[simp] theorem abort_drawn (e : Event) (s : State) : (abort e s).drawn = s.drawn := rfl

/-! ## push -/

@[simp] theorem push_params (p : Packet) (s : State) : (push p s).params = s.params := rfl
@[simp] theorem push_en (p : Packet) (s : State) : (push p s).en = s.en := rfl
@[simp] theorem push_cfgErr (p : Packet) (s : State) : (push p s).cfgErr = s.cfgErr := rfl
@[simp] theorem push_werr (p : Packet) (s : State) : (push p s).werr = s.werr := rfl
@[simp] theorem push_lastEvt (p : Packet) (s : State) :
    (push p s).lastEvt = if p.validCheck then .packetOk else .checkMismatch :=
  rfl
@[simp] theorem push_cfg (p : Packet) (s : State) : (push p s).cfg = s.cfg := rfl
@[simp] theorem push_cnt (p : Packet) (s : State) :
    (push p s).cnt = { s.cnt with
      pkt := s.cnt.pkt + 1#32
      bad := if p.validCheck then s.cnt.bad else s.cnt.bad + 1#32 } :=
  rfl
@[simp] theorem push_dec (p : Packet) (s : State) : (push p s).dec = s.dec := rfl
@[simp] theorem push_buf (p : Packet) (s : State) : (push p s).buf = s.buf := rfl
@[simp] theorem push_queue (p : Packet) (s : State) : (push p s).queue = s.queue ++ [p] := rfl
@[simp] theorem push_beat (p : Packet) (s : State) : (push p s).beat = s.beat := rfl
@[simp] theorem push_out (p : Packet) (s : State) : (push p s).out = s.out := rfl
@[simp] theorem push_host (p : Packet) (s : State) : (push p s).host = s.host := rfl
@[simp] theorem push_drawn (p : Packet) (s : State) : (push p s).drawn = s.drawn := rfl

/-! ## decoderReset -/

@[simp] theorem decoderReset_params (s : State) : (decoderReset s).params = s.params := rfl
@[simp] theorem decoderReset_en (s : State) : (decoderReset s).en = s.en := rfl
@[simp] theorem decoderReset_cfgErr (s : State) : (decoderReset s).cfgErr = s.cfgErr := rfl
@[simp] theorem decoderReset_werr (s : State) : (decoderReset s).werr = s.werr := rfl
@[simp] theorem decoderReset_lastEvt (s : State) : (decoderReset s).lastEvt = s.lastEvt := rfl
@[simp] theorem decoderReset_cfg (s : State) : (decoderReset s).cfg = s.cfg := rfl
@[simp] theorem decoderReset_cnt (s : State) : (decoderReset s).cnt = s.cnt := rfl
@[simp] theorem decoderReset_dec (s : State) : (decoderReset s).dec = .reset := rfl
@[simp] theorem decoderReset_buf (s : State) : (decoderReset s).buf = s.buf := rfl
@[simp] theorem decoderReset_queue (s : State) : (decoderReset s).queue = s.queue := rfl
@[simp] theorem decoderReset_beat (s : State) : (decoderReset s).beat = s.beat := rfl
@[simp] theorem decoderReset_out (s : State) : (decoderReset s).out = s.out := rfl
@[simp] theorem decoderReset_host (s : State) : (decoderReset s).host = s.host := rfl
@[simp] theorem decoderReset_drawn (s : State) : (decoderReset s).drawn = s.drawn := rfl

/-! ## clearCounters -/

@[simp] theorem clearCounters_params (s : State) : (clearCounters s).params = s.params := rfl
@[simp] theorem clearCounters_en (s : State) : (clearCounters s).en = s.en := rfl
@[simp] theorem clearCounters_cfgErr (s : State) : (clearCounters s).cfgErr = s.cfgErr := rfl
@[simp] theorem clearCounters_werr (s : State) : (clearCounters s).werr = s.werr := rfl
@[simp] theorem clearCounters_lastEvt (s : State) : (clearCounters s).lastEvt = s.lastEvt := rfl
@[simp] theorem clearCounters_cfg (s : State) : (clearCounters s).cfg = s.cfg := rfl
@[simp] theorem clearCounters_cnt (s : State) : (clearCounters s).cnt = .zero := rfl
@[simp] theorem clearCounters_dec (s : State) : (clearCounters s).dec = s.dec := rfl
@[simp] theorem clearCounters_buf (s : State) : (clearCounters s).buf = s.buf := rfl
@[simp] theorem clearCounters_queue (s : State) : (clearCounters s).queue = s.queue := rfl
@[simp] theorem clearCounters_beat (s : State) : (clearCounters s).beat = s.beat := rfl
@[simp] theorem clearCounters_out (s : State) : (clearCounters s).out = s.out := rfl
@[simp] theorem clearCounters_host (s : State) : (clearCounters s).host = s.host := rfl
@[simp] theorem clearCounters_drawn (s : State) : (clearCounters s).drawn = s.drawn := rfl

/-! ## disable -/

@[simp] theorem disable_params (s : State) : (disable s).params = s.params := rfl
@[simp] theorem disable_en (s : State) : (disable s).en = false := rfl
@[simp] theorem disable_cfgErr (s : State) : (disable s).cfgErr = s.cfgErr := rfl
@[simp] theorem disable_werr (s : State) : (disable s).werr = s.werr := rfl
@[simp] theorem disable_lastEvt (s : State) : (disable s).lastEvt = s.lastEvt := rfl
@[simp] theorem disable_cfg (s : State) : (disable s).cfg = s.cfg := rfl
@[simp] theorem disable_cnt (s : State) : (disable s).cnt = s.cnt := rfl
@[simp] theorem disable_dec (s : State) : (disable s).dec = .reset := rfl
@[simp] theorem disable_buf (s : State) : (disable s).buf = s.buf := rfl
@[simp] theorem disable_queue (s : State) : (disable s).queue = s.queue := rfl
@[simp] theorem disable_beat (s : State) : (disable s).beat = s.beat := rfl
@[simp] theorem disable_out (s : State) : (disable s).out = s.out := rfl
@[simp] theorem disable_host (s : State) : (disable s).host = s.host := rfl
@[simp] theorem disable_drawn (s : State) : (disable s).drawn = s.drawn := rfl

/-! ## resetAll -/

@[simp] theorem resetAll_params (s : State) : (resetAll s).params = s.params := rfl
@[simp] theorem resetAll_en (s : State) : (resetAll s).en = false := rfl
@[simp] theorem resetAll_cfgErr (s : State) : (resetAll s).cfgErr = false := rfl
@[simp] theorem resetAll_werr (s : State) : (resetAll s).werr = false := rfl
@[simp] theorem resetAll_lastEvt (s : State) : (resetAll s).lastEvt = .none := rfl
@[simp] theorem resetAll_cfg (s : State) : (resetAll s).cfg = .reset := rfl
@[simp] theorem resetAll_cnt (s : State) : (resetAll s).cnt = .zero := rfl
@[simp] theorem resetAll_dec (s : State) : (resetAll s).dec = .reset := rfl
@[simp] theorem resetAll_buf (s : State) : (resetAll s).buf = List.replicate s.params.maxBytes 0#8 := rfl
@[simp] theorem resetAll_queue (s : State) : (resetAll s).queue = [] := rfl
@[simp] theorem resetAll_beat (s : State) : (resetAll s).beat = 0#8 := rfl
@[simp] theorem resetAll_out (s : State) : (resetAll s).out = s.out := rfl
@[simp] theorem resetAll_host (s : State) : (resetAll s).host = s.host := rfl
@[simp] theorem resetAll_drawn (s : State) : (resetAll s).drawn = s.drawn := rfl

/-! ## startFrame -/

@[simp] theorem startFrame_params (s : State) : (startFrame s).params = s.params := rfl
@[simp] theorem startFrame_en (s : State) : (startFrame s).en = s.en := rfl
@[simp] theorem startFrame_cfgErr (s : State) : (startFrame s).cfgErr = s.cfgErr := rfl
@[simp] theorem startFrame_werr (s : State) : (startFrame s).werr = s.werr := rfl
@[simp] theorem startFrame_lastEvt (s : State) : (startFrame s).lastEvt = s.lastEvt := rfl
@[simp] theorem startFrame_cfg (s : State) : (startFrame s).cfg = s.cfg := rfl
@[simp] theorem startFrame_cnt (s : State) : (startFrame s).cnt = s.cnt := rfl
@[simp] theorem startFrame_dec (s : State) :
    (startFrame s).dec = { s.dec with
      preCnt := 0#5, bitTotal := 0#16, cur := 0#8, nbits := 0#4, nbytes := 0#8
      phase := if 0 < s.cfg.preLen.toNat then .syncing else .collecting } :=
  rfl
@[simp] theorem startFrame_buf (s : State) : (startFrame s).buf = s.buf := rfl
@[simp] theorem startFrame_queue (s : State) : (startFrame s).queue = s.queue := rfl
@[simp] theorem startFrame_beat (s : State) : (startFrame s).beat = s.beat := rfl
@[simp] theorem startFrame_out (s : State) : (startFrame s).out = s.out := rfl
@[simp] theorem startFrame_host (s : State) : (startFrame s).host = s.host := rfl
@[simp] theorem startFrame_drawn (s : State) : (startFrame s).drawn = s.drawn := rfl

/-! ## appendBit -/

@[simp] theorem appendBit_params (b : Bool) (s : State) : (appendBit b s).params = s.params := rfl
@[simp] theorem appendBit_en (b : Bool) (s : State) : (appendBit b s).en = s.en := rfl
@[simp] theorem appendBit_cfgErr (b : Bool) (s : State) : (appendBit b s).cfgErr = s.cfgErr := rfl
@[simp] theorem appendBit_werr (b : Bool) (s : State) : (appendBit b s).werr = s.werr := rfl
@[simp] theorem appendBit_lastEvt (b : Bool) (s : State) : (appendBit b s).lastEvt = s.lastEvt := rfl
@[simp] theorem appendBit_cfg (b : Bool) (s : State) : (appendBit b s).cfg = s.cfg := rfl
@[simp] theorem appendBit_cnt (b : Bool) (s : State) : (appendBit b s).cnt = s.cnt := rfl
@[simp] theorem appendBit_buf (b : Bool) (s : State) : (appendBit b s).buf = s.buf := rfl
@[simp] theorem appendBit_queue (b : Bool) (s : State) : (appendBit b s).queue = s.queue := rfl
@[simp] theorem appendBit_beat (b : Bool) (s : State) : (appendBit b s).beat = s.beat := rfl
@[simp] theorem appendBit_out (b : Bool) (s : State) : (appendBit b s).out = s.out := rfl
@[simp] theorem appendBit_host (b : Bool) (s : State) : (appendBit b s).host = s.host := rfl
@[simp] theorem appendBit_drawn (b : Bool) (s : State) : (appendBit b s).drawn = s.drawn := rfl
@[simp] theorem appendBit_dec (b : Bool) (s : State) : (appendBit b s).dec =
    { s.dec with
      bitTotal := s.dec.bitTotal + 1#16
      cur := (s.dec.cur <<< 1) ||| BitVec.setWidth 8 (BitVec.ofBool b)
      nbits := s.dec.nbits + 1#4 } := rfl

/-! ## countBit -/

@[simp] theorem countBit_params (s : State) : (countBit s).params = s.params := rfl
@[simp] theorem countBit_en (s : State) : (countBit s).en = s.en := rfl
@[simp] theorem countBit_cfgErr (s : State) : (countBit s).cfgErr = s.cfgErr := rfl
@[simp] theorem countBit_werr (s : State) : (countBit s).werr = s.werr := rfl
@[simp] theorem countBit_lastEvt (s : State) : (countBit s).lastEvt = s.lastEvt := rfl
@[simp] theorem countBit_cfg (s : State) : (countBit s).cfg = s.cfg := rfl
@[simp] theorem countBit_cnt (s : State) : (countBit s).cnt = s.cnt := rfl
@[simp] theorem countBit_buf (s : State) : (countBit s).buf = s.buf := rfl
@[simp] theorem countBit_queue (s : State) : (countBit s).queue = s.queue := rfl
@[simp] theorem countBit_beat (s : State) : (countBit s).beat = s.beat := rfl
@[simp] theorem countBit_out (s : State) : (countBit s).out = s.out := rfl
@[simp] theorem countBit_host (s : State) : (countBit s).host = s.host := rfl
@[simp] theorem countBit_drawn (s : State) : (countBit s).drawn = s.drawn := rfl
@[simp] theorem countBit_dec (s : State) : (countBit s).dec = { s.dec with bitTotal := s.dec.bitTotal + 1#16 } := rfl

/-! ## matchBit -/

@[simp] theorem matchBit_params (s : State) : (matchBit s).params = s.params := rfl
@[simp] theorem matchBit_en (s : State) : (matchBit s).en = s.en := rfl
@[simp] theorem matchBit_cfgErr (s : State) : (matchBit s).cfgErr = s.cfgErr := rfl
@[simp] theorem matchBit_werr (s : State) : (matchBit s).werr = s.werr := rfl
@[simp] theorem matchBit_lastEvt (s : State) : (matchBit s).lastEvt = s.lastEvt := rfl
@[simp] theorem matchBit_cfg (s : State) : (matchBit s).cfg = s.cfg := rfl
@[simp] theorem matchBit_cnt (s : State) : (matchBit s).cnt = s.cnt := rfl
@[simp] theorem matchBit_buf (s : State) : (matchBit s).buf = s.buf := rfl
@[simp] theorem matchBit_queue (s : State) : (matchBit s).queue = s.queue := rfl
@[simp] theorem matchBit_beat (s : State) : (matchBit s).beat = s.beat := rfl
@[simp] theorem matchBit_out (s : State) : (matchBit s).out = s.out := rfl
@[simp] theorem matchBit_host (s : State) : (matchBit s).host = s.host := rfl
@[simp] theorem matchBit_drawn (s : State) : (matchBit s).drawn = s.drawn := rfl
@[simp] theorem matchBit_dec (s : State) : (matchBit s).dec = { s.dec with preCnt := s.dec.preCnt + 1#5 } := rfl

end Sys2Proof.Machine
end

