-- ==== Sys2Proof/Laws/Ops.lean ====
section
/-! SUPPORT. What each conditional operation of the decoder leaves alone (`SameControl`), and the shapes of its results. -/

namespace Sys2Proof.Machine

@[simp] theorem andThen_next (s : State) (k : State → Host.Outcome State Fault Refusal) : andThen (.next s) k = k s := rfl

theorem SameControl.refl (s : State) : SameControl s s := ⟨rfl, rfl, rfl, rfl, rfl, rfl, rfl, rfl, rfl⟩

theorem SameControl.trans {s t u : State} (h : SameControl s t) (k : SameControl t u) : SameControl s u :=
  ⟨k.params.trans h.params, k.en.trans h.en, k.cfgErr.trans h.cfgErr, k.werr.trans h.werr, k.cfg.trans h.cfg,
    k.beat.trans h.beat, k.out.trans h.out, k.host.trans h.host, k.drawn.trans h.drawn⟩

/-- A state that differs only in the decoder, the buffer, the queue, the counters and the event has the same control. -/
theorem SameControl.of_dec (s : State) (d : Decoder) (b : List Byte) (q : List Packet) (c : Counters) (e : Event) :
    SameControl s { s with dec := d, buf := b, queue := q, cnt := c, lastEvt := e } :=
  ⟨rfl, rfl, rfl, rfl, rfl, rfl, rfl, rfl, rfl⟩

theorem abort_sameControl (e : Event) (s : State) : SameControl s (abort e s) := SameControl.of_dec s _ _ _ _ _

theorem push_sameControl (p : Packet) (s : State) : SameControl s (push p s) := SameControl.of_dec s _ _ _ _ _

theorem emitPacket_sameControl (p : Packet) (s : State) : SameControl s (emitPacket p s) := by
  unfold emitPacket
  split <;> exact SameControl.of_dec s _ _ _ _ _

theorem emitRetry_sameControl (s : State) : SameControl s (emitRetry s) := by
  unfold emitRetry
  split
  · split
    · exact SameControl.of_dec s _ _ _ _ _
    · exact SameControl.refl s
  · exact SameControl.refl s

theorem byteDone_sameControl (s : State) : SameControl s (byteDone s) := by
  unfold byteDone
  split <;> exact SameControl.of_dec s _ _ _ _ _

theorem pushBit_sameControl (b : Bool) (s : State) : SameControl s (pushBit b s) := by
  unfold pushBit
  split
  · unfold pushPreambleBit
    split
    · split <;> exact SameControl.of_dec s _ _ _ _ _
    · exact SameControl.of_dec s _ _ _ _ _
  · unfold pushPayloadBit
    split
    · exact (SameControl.of_dec s _ _ _ _ _).trans (byteDone_sameControl (appendBit b s))
    · exact SameControl.of_dec s _ _ _ _ _
  all_goals exact SameControl.refl s

theorem lowEnded_sameControl (len : Half) (s : State) : SameControl s (lowEnded len s) := by
  unfold lowEnded
  split
  any_goals split
  all_goals first | exact SameControl.refl s | exact SameControl.of_dec s _ _ _ _ _

theorem highEnded_sameControl (len : Half) (s : State) : SameControl s (highEnded len s) := by
  unfold highEnded
  split
  any_goals split
  all_goals
    first
    | exact SameControl.refl s
    | exact SameControl.of_dec s _ _ _ _ _
    | exact pushBit_sameControl _ s

theorem completeFrame_sameControl (s : State) : SameControl s (completeFrame s) :=
  (SameControl.of_dec s _ _ _ _ _).trans (emitPacket_sameControl _ _)

theorem gapReached_sameControl (s : State) : SameControl s (gapReached s) := by
  unfold gapReached
  split
  any_goals split
  all_goals
    first
    | exact SameControl.refl s
    | exact SameControl.of_dec s _ _ _ _ _
    | exact completeFrame_sameControl s

theorem setLine_sameControl (v : Bool) (r : Half) (s : State) : SameControl s (setLine v r s) :=
  SameControl.of_dec s _ _ _ _ _

theorem onlyIf_sameControl (c : Bool) (f : State → State) (s : State) (h : SameControl s (f s)) :
    SameControl s (onlyIf c f s) := by
  unfold onlyIf
  split
  · exact h
  · exact SameControl.refl s

theorem streamEnd_sameControl (s : State) : SameControl s (streamEnd s) := by
  refine SameControl.trans ?_ (setLine_sameControl _ _ _)
  unfold dropOpenFrame
  split
  all_goals first | exact SameControl.refl s | exact SameControl.of_dec s _ _ _ _ _

theorem edgeStep_sameControl (s : State) : SameControl s (edgeStep s) := by
  unfold edgeStep
  split
  · exact highEnded_sameControl _ s
  · exact lowEnded_sameControl _ s

/-- The sample step leaves alone everything but the decoder, the buffer, the queue, the counters and the event (R108). -/
theorem sampleStep_sameControl (x : Word) (last : Bool) (s : State) : SameControl s (sampleStep x last s) :=
  (((onlyIf_sameControl _ _ _ (edgeStep_sameControl s)).trans (setLine_sameControl _ _ _)).trans
    (onlyIf_sameControl _ _ _ (gapReached_sameControl _))).trans (onlyIf_sameControl _ _ _ (streamEnd_sameControl _))

/-- BEAT touches only the queue and the beat index (R166). -/
theorem beatStep_eq (s : State) : ∃ q b, beatStep s = { s with queue := q, beat := b } := by
  unfold beatStep
  split
  · exact ⟨s.queue, s.beat, rfl⟩
  · split
    · exact ⟨_, _, rfl⟩
    · exact ⟨s.queue, _, rfl⟩

/-- WR_CTRL touches only EN, CFG_ERR, the event, the decoder state and the counters (R175). -/
theorem execWrCtrl_eq (w : Word) (s : State) : ∃ en ce e d c,
    execWrCtrl w s = .next { s with en := en, cfgErr := ce, lastEvt := e, dec := d, cnt := c } := by
  unfold execWrCtrl writeEn enableCheck disable
  cases w.getLsbD 0 <;> cases w.getLsbD 1 <;> cases w.getLsbD 2 <;> cases hs : s.en <;>
    cases tolLegal s.cfg.tol <;> exact ⟨_, _, _, _, _, rfl⟩

/-- A configuration write either sets WERR or writes the configuration (R181). -/
theorem configWrite_eq (u : ConfigRegs → ConfigRegs) (s : State) :
    (s.en = true ∧ configWrite u s = { s with werr := true }) ∨
    (s.en = false ∧ configWrite u s = { s with cfg := u s.cfg }) := by
  unfold configWrite
  cases h : s.en
  · exact .inr ⟨rfl, by simp⟩
  · exact .inl ⟨rfl, by simp⟩

end Sys2Proof.Machine
end

