-- ==== Sys2Proof/Laws/Cycle.lean ====
section
/-! SUPPORT. What an operation and a whole cycle do, as functions on states: every operation answers a next state (`effect`), a
read is `readReg` of a value, and `cycle` is `cycleNext`, the steps of R200 one after another. -/

namespace Sys2Proof.Machine

/-! ## Operations -/

/-- The state an operation leaves; `exec_eq_effect` says that `exec` answers it. -/
def effect (i : Instr) (s : State) : State :=
  match exec i s with
  | .next t => t
  | .fault _ => s
  | .refused _ => s

theorem exec_eq_effect (i : Instr) (s : State) : exec i s = .next (effect i s) := by cases i <;> rfl

/-- An operation of the read step changes nothing but `reg_rdata` (R56, R71). -/
theorem effect_of_read {i : Instr} (h : stageOf i = .read) (s : State) : ∃ v, effect i s = readReg v s := by
  cases i <;> first | exact ⟨_, rfl⟩ | cases h

/-- The value a read returns does not depend on the output signals: `driveOutputs` before it changes nothing. -/
theorem effect_read_driveOutputs {i : Instr} (h : stageOf i = .read) (s : State) :
    effect i (driveOutputs s) = readReg (effect i s).out.regRdata (driveOutputs s) := by
  cases i <;> first | rfl | cases h

/-- An operation of the write step leaves alone the parameters, the buffer, the queue, the beat index, the output signals and
the host's schedule (R175, R181, R182, R206, R208). -/
theorem effect_of_write {i : Instr} (h : stageOf i = .write) (s : State) :
    ∃ en ce we e cfg cnt d,
      effect i s = { s with en := en, cfgErr := ce, werr := we, lastEvt := e, cfg := cfg, cnt := cnt, dec := d } := by
  have hcfg : ∀ u, ∃ en ce we e cfg cnt d, configWrite u s =
      { s with en := en, cfgErr := ce, werr := we, lastEvt := e, cfg := cfg, cnt := cnt, dec := d } := by
    intro u
    rcases configWrite_eq u s with ⟨-, hu⟩ | ⟨-, hu⟩ <;> exact ⟨_, _, _, _, _, _, _, hu⟩
  cases i <;> first | exact ⟨_, _, _, _, _, _, _, rfl⟩ | (cases h; done) | skip
  case wrCfg w => exact hcfg (legalCfg w)
  case wrTol w => exact hcfg fun c => { c with tol := w }
  case wrShortNom w => exact hcfg fun c => { c with shortNom := lowHalf w }
  case wrLongNom w => exact hcfg fun c => { c with longNom := lowHalf w }
  case wrGapMin w => exact hcfg fun c => { c with gapMin := legalGapMin w }
  case wrThresh w => exact hcfg fun c => { c with thresh := w }
  case wrPreamble w => exact hcfg fun c => { c with preamble := lowHalf w }
  case wrCtrl w =>
    obtain ⟨en, ce, e, d, c, he⟩ := execWrCtrl_eq w s
    exact ⟨en, ce, s.werr, e, s.cfg, c, d, by simp [effect, exec, he]⟩
  case wrStatus w =>
    refine ⟨s.en, s.cfgErr, if w.getLsbD 4 then false else s.werr, s.lastEvt, s.cfg, s.cnt, s.dec, ?_⟩
    simp only [effect, exec, execWrStatus]
    split <;> rfl

/-! ## The BUS word -/

theorem busOp_bit (wr : Bool) (a : Byte) : (busOp wr a).getLsbD 8 = wr := by
  rw [busOp, BitVec.getLsbD_append]
  cases wr <;> rfl

theorem busOp_addr (wr : Bool) (a : Byte) : (busOp wr a).extractLsb' 0 8 = a := by
  ext i hi
  rw [busOp, BitVec.getElem_extractLsb', BitVec.getLsbD_append]
  simp [hi]

theorem mem_of_lookup {a : Byte} {l : List (Byte × Instr)} {i : Instr} (h : l.lookup a = some i) : (a, i) ∈ l := by
  induction l with
  | nil => cases h
  | cons p l ih =>
    obtain ⟨b, j⟩ := p
    rw [List.lookup_cons] at h
    split at h
    · rename_i hb
      cases h
      simp [eq_of_beq hb]
    · exact List.mem_cons_of_mem _ (ih h)

/-- A BUS word with W = 1 stands for a write, any other for a read (R74, R79). -/
theorem stageOf_decodeBus (op : BitVec 9) (w : Word) :
    stageOf (decodeBus op w) = if op.getLsbD 8 then .write else .read := by
  unfold decodeBus
  simp only
  cases op.getLsbD 8
  · simp only [Bool.false_eq_true, if_false]
    cases h : busReads.lookup (op.extractLsb' 0 8) with
    | none => rfl
    | some i =>
      have hm := mem_of_lookup h
      simp only [busReads, List.mem_cons, Prod.mk.injEq, List.not_mem_nil, or_false] at hm
      rcases hm with h | h | h | h | h | h | h | h | h | h | h | h | h | h <;> simp [h.2, stageOf]
  · simp only [if_true]
    cases h : (busWrites w).lookup (op.extractLsb' 0 8) with
    | none => rfl
    | some i =>
      have hm := mem_of_lookup h
      simp only [busWrites, List.mem_cons, Prod.mk.injEq, List.not_mem_nil, or_false] at hm
      rcases hm with h | h | h | h | h | h | h | h | h | h | h | h | h | h <;> simp [h.2, stageOf]

theorem stageOf_busRead (a : Byte) (w : Word) : stageOf (decodeBus (busOp false a) w) = .read := by
  rw [stageOf_decodeBus, busOp_bit]
  rfl

theorem stageOf_busWrite (a : Byte) (w : Word) : stageOf (decodeBus (busOp true a) w) = .write := by
  rw [stageOf_decodeBus, busOp_bit]
  rfl

/-- Address 0x00 with W = 1 is WR_CTRL (R79). -/
theorem decodeBus_wrCtrl (w : Word) : decodeBus (busOp true 0x00#8) w = .wrCtrl w := rfl

/-! ## The cycle -/

/-- `Cycle` of R200 as a function on states. -/
def cycleNext (p : Inputs) (s : State) : State :=
  if p.rst then resetAll (driveOutputs s)
  else
    onlyIf (p.regSel && p.regWr) (effect (decodeBus (busOp true p.regAddr) p.regWdata))
      (onlyIf (p.sValid && sReady s) (sampleStep p.sData p.sLast)
        (onlyIf (s.dec.phase == .emit) emitRetry
          (onlyIf (mValid s && p.mReady) beatStep
            (onlyIf (p.regSel && !p.regWr) (effect (decodeBus (busOp false p.regAddr) p.regWdata)) (driveOutputs s)))))

@[simp] theorem execList_nil (s : State) : execList [] s = .next s := rfl

@[simp] theorem execList_cons (i : Instr) (l : List Instr) (s : State) :
    execList (i :: l) s = execList l (effect i s) := by
  simp [execList, exec_eq_effect]

theorem execList_append (l m : List Instr) (s : State) :
    execList (l ++ m) s = andThen (execList l s) (execList m) := by
  induction l generalizing s with
  | nil => rfl
  | cons i l ih => simp [ih]

/-- A ready sample port's samples are the sample step; `sReady` is untouched by what comes before it in a cycle. -/
theorem effect_sample_ready {s : State} (h : sReady s = true) (x : Word) :
    effect (.sample x) s = sampleStep x false s ∧ effect (.sampleLast x) s = sampleStep x true s := by
  simp [effect, exec, execSample, execSampleLast, offerSample, h]

theorem effect_beat (s : State) : effect .beat s = beatStep s := rfl

@[simp] theorem onlyIf_true (f : State → State) (s : State) : onlyIf true f s = f s := rfl

@[simp] theorem onlyIf_false (f : State → State) (s : State) : onlyIf false f s = s := rfl

theorem sReady_driveOutputs (s : State) : sReady (driveOutputs s) = sReady s := rfl

theorem sReady_readReg (v : Word) (s : State) : sReady (readReg v s) = sReady s := rfl

theorem sReady_beatStep (s : State) : sReady (beatStep s) = sReady s := by
  obtain ⟨q, b, h⟩ := beatStep_eq s
  rw [h]
  rfl

/-- `s_ready = 1` rules out EMIT (R72). -/
theorem phase_of_sReady {s : State} (h : sReady s = true) : (s.dec.phase == .emit) = false := by
  simp [sReady, bne] at h
  simpa using h.2

/-- The PORT word of a cycle decodes to the operations its handshakes stand for (R75). -/
theorem decodePort_portWord (s : State) (p : Inputs) :
    decodePort (portWord s p) p.sData =
      .ok ((if p.sValid && sReady s then [if p.sLast then .sampleLast p.sData else .sample p.sData] else []) ++
        (if mValid s && p.mReady then [.beat] else [])) := by
  unfold portWord
  cases p.sValid && sReady s <;> cases p.sLast <;> cases mValid s && p.mReady <;> rfl

/-- The operations of a cycle without `rst`. -/
theorem cycleOps_eq {p : Inputs} (h : p.rst = false) (s : State) :
    cycleOps s p = .ok (busOps p ++
      ((if p.sValid && sReady s then [if p.sLast then .sampleLast p.sData else .sample p.sData] else []) ++
        (if mValid s && p.mReady then [.beat] else []))) := by
  simp only [cycleOps, h, decodePort_portWord]
  rfl

theorem cycleOps_rst {p : Inputs} (h : p.rst = true) (s : State) : cycleOps s p = .ok [.reset] := by
  simp only [cycleOps, h]
  rfl

/-- The cycle in the order of R200. -/
theorem cycle_eq (p : Inputs) (s : State) : cycle p s = .next (cycleNext p s) := by
  cases hr : p.rst
  · have hb : stageOf .beat = .output := rfl
    have hread := stageOf_busRead p.regAddr p.regWdata
    have hwrite := stageOf_busWrite p.regAddr p.regWdata
    have hops := cycleOps_eq hr s
    simp only [cycle, hops, runOps, runStage, cycleNext, hr, busOps, retryStage]
    obtain ⟨v, hrd⟩ := effect_of_read hread (driveOutputs s)
    have hx : ∀ t, sReady t = sReady s → (p.sValid && sReady s) = true →
        effect (if p.sLast then .sampleLast p.sData else .sample p.sData) t = sampleStep p.sData p.sLast t := by
      intro t ht hv
      have hr' : sReady t = true := by simp [ht, (Bool.and_eq_true_iff.mp hv).2]
      cases p.sLast
      · exact (effect_sample_ready hr' _).1
      · exact (effect_sample_ready hr' _).2
    have hst : stageOf (if p.sLast then .sampleLast p.sData else .sample p.sData) = .sample := by
      split <;> rfl
    have hq : (p.sValid && sReady s) = true → (s.dec.phase == .emit) = false :=
      fun h => phase_of_sReady (Bool.and_eq_true_iff.mp h).2
    generalize (if p.sLast then Instr.sampleLast p.sData else .sample p.sData) = smp at hx hst
    cases hsel : p.regSel <;> cases hwr : p.regWr <;> cases hm : mValid s && p.mReady <;>
      cases hv : p.sValid && sReady s <;> cases he : s.dec.phase == .emit
    all_goals
      first
      | (have := hq hv; rw [he] at this; cases this; done)
      | skip
    all_goals
      have he' := he
      simp only [beq_eq_false_iff_ne, ne_eq, beq_iff_eq] at he'
      simp [hread, hwrite, hst, hb, he', hrd, effect_beat]
    all_goals
      rw [hx _ _ hv]
      simp [sReady_beatStep, sReady_readReg, sReady_driveOutputs]
  · simp only [cycle, cycleOps_rst hr, runOps, cycleNext, hr]
    rfl

end Sys2Proof.Machine
end

