-- ==== Sys2Proof/Laws/PerInstr.lean ====
section
/-! SUPPORT. The word of every operation against its row of spec/opcode_table.json: the bits the row fixes hold the row's
values. -/

namespace Sys2Proof.Laws

/-- A row of the opcode table: its format, and the bits it fixes with their values. -/
structure Row where
  format : Format
  mask : Nat
  value : Nat
deriving DecidableEq, Repr

/-- The row of an operation (30_encoding.md R79). -/
def rowOf : Instr → Row
  | .rdCtrl => ⟨.bus, 0x1FF, 0x000⟩
  | .wrCtrl _ => ⟨.bus, 0x1FF, 0x100⟩
  | .rdStatus => ⟨.bus, 0x1FF, 0x004⟩
  | .wrStatus _ => ⟨.bus, 0x1FF, 0x104⟩
  | .rdCfg => ⟨.bus, 0x1FF, 0x008⟩
  | .wrCfg _ => ⟨.bus, 0x1FF, 0x108⟩
  | .rdTol => ⟨.bus, 0x1FF, 0x00C⟩
  | .wrTol _ => ⟨.bus, 0x1FF, 0x10C⟩
  | .rdShortNom => ⟨.bus, 0x1FF, 0x010⟩
  | .wrShortNom _ => ⟨.bus, 0x1FF, 0x110⟩
  | .rdLongNom => ⟨.bus, 0x1FF, 0x014⟩
  | .wrLongNom _ => ⟨.bus, 0x1FF, 0x114⟩
  | .rdGapMin => ⟨.bus, 0x1FF, 0x018⟩
  | .wrGapMin _ => ⟨.bus, 0x1FF, 0x118⟩
  | .rdThresh => ⟨.bus, 0x1FF, 0x01C⟩
  | .wrThresh _ => ⟨.bus, 0x1FF, 0x11C⟩
  | .rdPreamble => ⟨.bus, 0x1FF, 0x020⟩
  | .wrPreamble _ => ⟨.bus, 0x1FF, 0x120⟩
  | .rdPktCnt => ⟨.bus, 0x1FF, 0x024⟩
  | .rdBadCnt => ⟨.bus, 0x1FF, 0x028⟩
  | .rdSynclossCnt => ⟨.bus, 0x1FF, 0x02C⟩
  | .rdDiscardCnt => ⟨.bus, 0x1FF, 0x030⟩
  | .rdId => ⟨.bus, 0x1FF, 0x034⟩
  | .wrRoPktCnt _ => ⟨.bus, 0x1FF, 0x124⟩
  | .wrRoBadCnt _ => ⟨.bus, 0x1FF, 0x128⟩
  | .wrRoSynclossCnt _ => ⟨.bus, 0x1FF, 0x12C⟩
  | .wrRoDiscardCnt _ => ⟨.bus, 0x1FF, 0x130⟩
  | .wrRoId _ => ⟨.bus, 0x1FF, 0x134⟩
  | .rdRsvd _ => ⟨.bus, 0x100, 0x000⟩
  | .wrRsvd _ _ => ⟨.bus, 0x100, 0x100⟩
  | .sample _ => ⟨.port, 0b110, 0b100⟩
  | .sampleLast _ => ⟨.port, 0b110, 0b110⟩
  | .beat => ⟨.port, 0b001, 0b001⟩
  | .reset => ⟨.pin, 0b1, 0b1⟩

/-- The number of a word's operation bits, as the table numbers them. -/
def wordBits : OpWord → Nat
  | .bus op _ => op.toNat
  | .port pt _ => pt.toNat
  | .pin rst => rst.toNat

/-- The operation's word has its row's format and its row's fixed bits. -/
def TableRow.Statement (i : Instr) : Prop :=
  i.opWord.format = (rowOf i).format ∧ wordBits i.opWord &&& (rowOf i).mask = (rowOf i).value

theorem TableRow.rdCtrl : TableRow.Statement .rdCtrl := ⟨rfl, rfl⟩

theorem TableRow.wrCtrl (w : Word) : TableRow.Statement (.wrCtrl w) :=
  ⟨rfl, show (busOp true 0x00#8).toNat &&& 0x1FF = 0x100 by decide⟩

theorem TableRow.rdStatus : TableRow.Statement .rdStatus := ⟨rfl, rfl⟩

theorem TableRow.wrStatus (w : Word) : TableRow.Statement (.wrStatus w) :=
  ⟨rfl, show (busOp true 0x04#8).toNat &&& 0x1FF = 0x104 by decide⟩

theorem TableRow.rdCfg : TableRow.Statement .rdCfg := ⟨rfl, rfl⟩

theorem TableRow.wrCfg (w : Word) : TableRow.Statement (.wrCfg w) :=
  ⟨rfl, show (busOp true 0x08#8).toNat &&& 0x1FF = 0x108 by decide⟩

theorem TableRow.rdTol : TableRow.Statement .rdTol := ⟨rfl, rfl⟩

theorem TableRow.wrTol (w : Word) : TableRow.Statement (.wrTol w) :=
  ⟨rfl, show (busOp true 0x0C#8).toNat &&& 0x1FF = 0x10C by decide⟩

theorem TableRow.rdShortNom : TableRow.Statement .rdShortNom := ⟨rfl, rfl⟩

theorem TableRow.wrShortNom (w : Word) : TableRow.Statement (.wrShortNom w) :=
  ⟨rfl, show (busOp true 0x10#8).toNat &&& 0x1FF = 0x110 by decide⟩

theorem TableRow.rdLongNom : TableRow.Statement .rdLongNom := ⟨rfl, rfl⟩

theorem TableRow.wrLongNom (w : Word) : TableRow.Statement (.wrLongNom w) :=
  ⟨rfl, show (busOp true 0x14#8).toNat &&& 0x1FF = 0x114 by decide⟩

theorem TableRow.rdGapMin : TableRow.Statement .rdGapMin := ⟨rfl, rfl⟩

theorem TableRow.wrGapMin (w : Word) : TableRow.Statement (.wrGapMin w) :=
  ⟨rfl, show (busOp true 0x18#8).toNat &&& 0x1FF = 0x118 by decide⟩

theorem TableRow.rdThresh : TableRow.Statement .rdThresh := ⟨rfl, rfl⟩

theorem TableRow.wrThresh (w : Word) : TableRow.Statement (.wrThresh w) :=
  ⟨rfl, show (busOp true 0x1C#8).toNat &&& 0x1FF = 0x11C by decide⟩

theorem TableRow.rdPreamble : TableRow.Statement .rdPreamble := ⟨rfl, rfl⟩

theorem TableRow.wrPreamble (w : Word) : TableRow.Statement (.wrPreamble w) :=
  ⟨rfl, show (busOp true 0x20#8).toNat &&& 0x1FF = 0x120 by decide⟩

theorem TableRow.rdPktCnt : TableRow.Statement .rdPktCnt := ⟨rfl, rfl⟩

theorem TableRow.rdBadCnt : TableRow.Statement .rdBadCnt := ⟨rfl, rfl⟩

theorem TableRow.rdSynclossCnt : TableRow.Statement .rdSynclossCnt := ⟨rfl, rfl⟩

theorem TableRow.rdDiscardCnt : TableRow.Statement .rdDiscardCnt := ⟨rfl, rfl⟩

theorem TableRow.rdId : TableRow.Statement .rdId := ⟨rfl, rfl⟩

theorem TableRow.wrRoPktCnt (w : Word) : TableRow.Statement (.wrRoPktCnt w) :=
  ⟨rfl, show (busOp true 0x24#8).toNat &&& 0x1FF = 0x124 by decide⟩

theorem TableRow.wrRoBadCnt (w : Word) : TableRow.Statement (.wrRoBadCnt w) :=
  ⟨rfl, show (busOp true 0x28#8).toNat &&& 0x1FF = 0x128 by decide⟩

theorem TableRow.wrRoSynclossCnt (w : Word) : TableRow.Statement (.wrRoSynclossCnt w) :=
  ⟨rfl, show (busOp true 0x2C#8).toNat &&& 0x1FF = 0x12C by decide⟩

theorem TableRow.wrRoDiscardCnt (w : Word) : TableRow.Statement (.wrRoDiscardCnt w) :=
  ⟨rfl, show (busOp true 0x30#8).toNat &&& 0x1FF = 0x130 by decide⟩

theorem TableRow.wrRoId (w : Word) : TableRow.Statement (.wrRoId w) :=
  ⟨rfl, show (busOp true 0x34#8).toNat &&& 0x1FF = 0x134 by decide⟩

theorem TableRow.rdRsvd (addr : Byte) : TableRow.Statement (.rdRsvd addr) := by
  refine ⟨rfl, ?_⟩
  show (busOp false addr).toNat &&& 0x100 = 0x000
  revert addr
  decide

theorem TableRow.wrRsvd (addr : Byte) (w : Word) : TableRow.Statement (.wrRsvd addr w) := by
  refine ⟨rfl, ?_⟩
  show (busOp true addr).toNat &&& 0x100 = 0x100
  revert addr
  decide

theorem TableRow.sample (x : Word) : TableRow.Statement (.sample x) :=
  ⟨rfl, show (0b100#3).toNat &&& 0b110 = 0b100 by decide⟩

theorem TableRow.sampleLast (x : Word) : TableRow.Statement (.sampleLast x) :=
  ⟨rfl, show (0b110#3).toNat &&& 0b110 = 0b110 by decide⟩

theorem TableRow.beat : TableRow.Statement .beat := ⟨rfl, rfl⟩

theorem TableRow.reset : TableRow.Statement .reset := ⟨rfl, rfl⟩

end Sys2Proof.Laws
end

