-- ==== Sys2Proof/Laws/Sample.lean ====
section
/-! SUPPORT. What a bit and a sample do: the branches of `pushBit`, and the sample step as one of three cases, a rising edge, a
falling edge, no edge. -/

namespace Sys2Proof.Machine

/-! ## Bits -/

/-- While no frame is open a bit does nothing (R124). -/
theorem pushBit_of_not_open (b : Bool) (s : State) (h : s.dec.phase.isOpen = false) : pushBit b s = s := by
  unfold pushBit
  cases hp : s.dec.phase <;> simp [hp, Phase.isOpen] at h <;> rfl

/-- A byte goes to the buffer while there is room (R126). -/
theorem byteDone_of_room (s : State) (h : s.dec.nbytes.toNat ≠ s.params.maxBytes) :
    byteDone s = { s with
      buf := s.buf.set s.dec.nbytes.toNat s.dec.cur
      dec := { s.dec with nbytes := s.dec.nbytes + 1#8, cur := 0#8, nbits := 0#4 } } := by
  unfold byteDone
  rw [if_neg h]

/-- A byte that finds the buffer full aborts with OVERFLOW (R126). -/
theorem byteDone_of_full (s : State) (h : s.dec.nbytes.toNat = s.params.maxBytes) : byteDone s = abort .overflow s := by
  unfold byteDone
  rw [if_pos h]

/-! ## The gap -/

/-- In SEARCHING a gap does nothing (R129). -/
theorem gapReached_searching (s : State) (h : s.dec.phase = .searching) : gapReached s = s := by simp [gapReached, h]

/-- A gap leaves the line tracker alone (R129). -/
theorem gapReached_line (s : State) : (gapReached s).dec.lvl = s.dec.lvl ∧ (gapReached s).dec.run = s.dec.run := by
  have he : ∀ p (s : State), (emitPacket p s).dec.lvl = s.dec.lvl ∧ (emitPacket p s).dec.run = s.dec.run := by
    intro p s
    unfold emitPacket
    cases outqRoom s <;> exact ⟨rfl, rfl⟩
  unfold gapReached
  by_cases h : s.dec.nbits ≠ 0#4 ∨ s.dec.nbytes = 0#8 <;> simp only [h, if_true, if_false] <;> cases s.dec.phase <;>
    first | exact ⟨rfl, rfl⟩ | exact he (framePacket s) (setPhase .validating s)

/-! ## The sample step -/

theorem sat16_toNat (n : Nat) : (sat16 n).toNat = min n 65535 := by simp [sat16]

/-- A sample on a rising edge ends a low interval and nothing else (R103, R107, R108). -/
theorem sampleStep_rising (x : Word) (s : State) (h1 : s.dec.lvl = false) (h2 : slice s.cfg.thresh x = true) :
    sampleStep x false s = setLine true 1#16 (lowEnded s.dec.run s) := by
  unfold sampleStep
  simp only [h1, h2]
  simp [gapHit, nextRun, edgeStep, h1]

/-- A sample on a falling edge ends a high interval, and with GAP_MIN = 1 it is a gap as well (R103, R107, R108). -/
theorem sampleStep_falling (x : Word) (s : State) (h1 : s.dec.lvl = true) (h2 : slice s.cfg.thresh x = false) :
    sampleStep x false s =
      onlyIf (decide (s.cfg.gapMin = 1#16)) gapReached (setLine false 1#16 (highEnded s.dec.run s)) := by
  have h : gapHit s.cfg false 1#16 true s.dec.run = decide (s.cfg.gapMin = 1#16) := by
    rw [Bool.eq_iff_iff]
    simp [gapHit]
    exact eq_comm
  unfold sampleStep
  simp only [h1, h2]
  simp [edgeStep, h1, h, nextRun]

/-- A sample without an edge lengthens the run, and a low run that so reaches GAP_MIN is a gap (R102, R107, R108). -/
theorem sampleStep_flat (x : Word) (s : State) (h : slice s.cfg.thresh x = s.dec.lvl) :
    sampleStep x false s =
      onlyIf (decide (s.dec.lvl = false ∧ s.dec.run.toNat + 1 = s.cfg.gapMin.toNat)) gapReached
        (setLine s.dec.lvl (sat16 (s.dec.run.toNat + 1)) s) := by
  have hg : gapHit s.cfg s.dec.lvl (sat16 (s.dec.run.toNat + 1)) s.dec.lvl s.dec.run =
      decide (s.dec.lvl = false ∧ s.dec.run.toNat + 1 = s.cfg.gapMin.toNat) := by
    have h1 := s.dec.run.isLt
    have h2 := s.cfg.gapMin.isLt
    rw [Bool.eq_iff_iff]
    cases s.dec.lvl
    · simp [gapHit, ← BitVec.toNat_inj, sat16_toNat]
      omega
    · simp [gapHit]
  unfold sampleStep
  simp only [h, bne_self_eq_false, onlyIf_false, nextRun, Bool.false_eq_true, if_false, hg]

/-- The last sample of a stream is a sample and then the stream end (R136). -/
theorem sampleStep_last (x : Word) (s : State) : sampleStep x true s = streamEnd (sampleStep x false s) := rfl

end Sys2Proof.Machine
end

