-- ==== Sys2Proof/Laws/Step.lean ====
section
/-! SUPPORT. The step as a function on states, and what its first stage leaves of the state. -/

namespace Sys2Proof.Machine

theorem step_eq (s : State) : step s = .next (cycleNext (nextDrive s).inputs (takeDrive s)) := cycle_eq _ _

theorem runCycles_succ (n : Nat) (s : State) :
    runCycles (n + 1) s = runCycles n (cycleNext (nextDrive s).inputs (takeDrive s)) := by
  rw [runCycles, step_eq]
  rfl

/-- Taking a drive changes only the host's schedule and the count of free inputs (log entry 2). -/
theorem takeDrive_eq (s : State) : ∃ h d, takeDrive s = { s with host := h, drawn := d } := by
  unfold takeDrive
  split
  · split <;> exact ⟨_, _, rfl⟩
  · exact ⟨_, _, rfl⟩

/-- A cycle without `rst`: the read stage and the driving of the outputs change the output signals alone. -/
theorem cycleNext_of_no_rst {p : Inputs} (hr : p.rst = false) (s : State) : ∃ o, cycleNext p s =
    onlyIf (p.regSel && p.regWr) (effect (decodeBus (busOp true p.regAddr) p.regWdata))
      (onlyIf (p.sValid && sReady s) (sampleStep p.sData p.sLast)
        (onlyIf (s.dec.phase == .emit) emitRetry
          (onlyIf (mValid s && p.mReady) beatStep { s with out := o }))) := by
  unfold cycleNext
  rw [hr]
  obtain ⟨v, hv⟩ := effect_of_read (stageOf_busRead p.regAddr p.regWdata) (driveOutputs s)
  simp only [Bool.false_eq_true, if_false]
  cases p.regSel && !p.regWr
  · exact ⟨_, rfl⟩
  · rw [onlyIf_true, hv]
    exact ⟨_, rfl⟩

/-- The output signals after a cycle: those of the state at its start, with `reg_rdata` in a read cycle (R71 to R73). -/
theorem cycleNext_out (p : Inputs) (s : State) : (cycleNext p s).out =
    if p.rst = false ∧ p.regSel = true ∧ p.regWr = false then
      (effect (decodeBus (busOp false p.regAddr) p.regWdata) (driveOutputs s)).out
    else stateOutputs s := by
  unfold cycleNext
  cases hr : p.rst
  · have hw : ∀ c s, (onlyIf c (effect (decodeBus (busOp true p.regAddr) p.regWdata)) s).out = s.out := by
      intro c s
      obtain ⟨en, ce, we, e, cfg, cnt, d, hw⟩ := effect_of_write (stageOf_busWrite p.regAddr p.regWdata) s
      cases c <;> simp [hw]
    have hs : ∀ c x l s, (onlyIf c (sampleStep x l) s).out = s.out :=
      fun c x l s => (onlyIf_sameControl _ _ _ (sampleStep_sameControl _ _ _)).out
    have he : ∀ c s, (onlyIf c emitRetry s).out = s.out :=
      fun c s => (onlyIf_sameControl _ _ _ (emitRetry_sameControl _)).out
    have hb : ∀ c s, (onlyIf c beatStep s).out = s.out := by
      intro c s
      cases c
      · rfl
      · obtain ⟨q, b, h⟩ := beatStep_eq s
        simp [h]
    rw [if_neg (by simp), hw, hs, he, hb]
    cases p.regSel <;> cases p.regWr <;> simp
  · simp [resetAll]

end Sys2Proof.Machine
end

