-- ==== Sys2Proof/Tests/Slice0.lean ====
section
/-! SUPPORT. Small tests: well-formedness, every operation's word, one step of each operation against 95_test_vectors.md, and for
every statement that has hypotheses a state and operands that meet them together. -/

namespace Sys2Proof.Tests

open Sys2Proof.Machine

/-! ## Well-formedness -/

theorem test_wf_rdRsvd_refused : (Instr.rdRsvd 0x04#8).wellFormed = false := by decide

theorem test_wf_wrRsvd_refused : (Instr.wrRsvd 0x00#8 5#32).wellFormed = false := by decide

/-- 0x34 is ID, the last mapped slot; 0x35 and 0x38 are reserved (R44). -/
theorem test_wf_boundary : (Instr.rdRsvd 0x34#8).wellFormed = false ∧ (Instr.rdRsvd 0x35#8).wellFormed = true ∧
    (Instr.wrRsvd 0x38#8 5#32).wellFormed = true ∧ (Instr.rdRsvd 0xFF#8).wellFormed = true := by decide

theorem test_wf_rest : (Instr.wrCtrl 0xFFFFFFFF#32).wellFormed = true ∧ (Instr.sample 0x7FC00000#32).wellFormed = true := by
  decide

/-! ## Decoding: a word of every operation, written from 30_encoding.md R74, R75, R79 -/

theorem test_decode_rdCtrl :
    decode .bus [0x00#8, 0x00#8, 0x78#8, 0x56#8, 0x34#8, 0x12#8] = .ok ([.rdCtrl], []) := rfl

theorem test_decode_wrCtrl :
    decode .bus [0x00#8, 0x01#8, 0x78#8, 0x56#8, 0x34#8, 0x12#8] = .ok ([.wrCtrl 0x12345678#32], []) := rfl

theorem test_decode_rdStatus :
    decode .bus [0x04#8, 0x00#8, 0x78#8, 0x56#8, 0x34#8, 0x12#8] = .ok ([.rdStatus], []) := rfl

theorem test_decode_wrStatus :
    decode .bus [0x04#8, 0x01#8, 0x78#8, 0x56#8, 0x34#8, 0x12#8] = .ok ([.wrStatus 0x12345678#32], []) := rfl

theorem test_decode_rdCfg :
    decode .bus [0x08#8, 0x00#8, 0x78#8, 0x56#8, 0x34#8, 0x12#8] = .ok ([.rdCfg], []) := rfl

theorem test_decode_wrCfg :
    decode .bus [0x08#8, 0x01#8, 0x78#8, 0x56#8, 0x34#8, 0x12#8] = .ok ([.wrCfg 0x12345678#32], []) := rfl

theorem test_decode_rdTol :
    decode .bus [0x0C#8, 0x00#8, 0x78#8, 0x56#8, 0x34#8, 0x12#8] = .ok ([.rdTol], []) := rfl

theorem test_decode_wrTol :
    decode .bus [0x0C#8, 0x01#8, 0x78#8, 0x56#8, 0x34#8, 0x12#8] = .ok ([.wrTol 0x12345678#32], []) := rfl

theorem test_decode_rdShortNom :
    decode .bus [0x10#8, 0x00#8, 0x78#8, 0x56#8, 0x34#8, 0x12#8] = .ok ([.rdShortNom], []) := rfl

theorem test_decode_wrShortNom :
    decode .bus [0x10#8, 0x01#8, 0x78#8, 0x56#8, 0x34#8, 0x12#8] = .ok ([.wrShortNom 0x12345678#32], []) := rfl

theorem test_decode_rdLongNom :
    decode .bus [0x14#8, 0x00#8, 0x78#8, 0x56#8, 0x34#8, 0x12#8] = .ok ([.rdLongNom], []) := rfl

theorem test_decode_wrLongNom :
    decode .bus [0x14#8, 0x01#8, 0x78#8, 0x56#8, 0x34#8, 0x12#8] = .ok ([.wrLongNom 0x12345678#32], []) := rfl

theorem test_decode_rdGapMin :
    decode .bus [0x18#8, 0x00#8, 0x78#8, 0x56#8, 0x34#8, 0x12#8] = .ok ([.rdGapMin], []) := rfl

theorem test_decode_wrGapMin :
    decode .bus [0x18#8, 0x01#8, 0x78#8, 0x56#8, 0x34#8, 0x12#8] = .ok ([.wrGapMin 0x12345678#32], []) := rfl

theorem test_decode_rdThresh :
    decode .bus [0x1C#8, 0x00#8, 0x78#8, 0x56#8, 0x34#8, 0x12#8] = .ok ([.rdThresh], []) := rfl

theorem test_decode_wrThresh :
    decode .bus [0x1C#8, 0x01#8, 0x78#8, 0x56#8, 0x34#8, 0x12#8] = .ok ([.wrThresh 0x12345678#32], []) := rfl

theorem test_decode_rdPreamble :
    decode .bus [0x20#8, 0x00#8, 0x78#8, 0x56#8, 0x34#8, 0x12#8] = .ok ([.rdPreamble], []) := rfl

theorem test_decode_wrPreamble :
    decode .bus [0x20#8, 0x01#8, 0x78#8, 0x56#8, 0x34#8, 0x12#8] = .ok ([.wrPreamble 0x12345678#32], []) := rfl

theorem test_decode_rdPktCnt :
    decode .bus [0x24#8, 0x00#8, 0x78#8, 0x56#8, 0x34#8, 0x12#8] = .ok ([.rdPktCnt], []) := rfl

theorem test_decode_rdBadCnt :
    decode .bus [0x28#8, 0x00#8, 0x78#8, 0x56#8, 0x34#8, 0x12#8] = .ok ([.rdBadCnt], []) := rfl

theorem test_decode_rdSynclossCnt :
    decode .bus [0x2C#8, 0x00#8, 0x78#8, 0x56#8, 0x34#8, 0x12#8] = .ok ([.rdSynclossCnt], []) := rfl

theorem test_decode_rdDiscardCnt :
    decode .bus [0x30#8, 0x00#8, 0x78#8, 0x56#8, 0x34#8, 0x12#8] = .ok ([.rdDiscardCnt], []) := rfl

theorem test_decode_rdId :
    decode .bus [0x34#8, 0x00#8, 0x78#8, 0x56#8, 0x34#8, 0x12#8] = .ok ([.rdId], []) := rfl

theorem test_decode_wrRoPktCnt :
    decode .bus [0x24#8, 0x01#8, 0x78#8, 0x56#8, 0x34#8, 0x12#8] = .ok ([.wrRoPktCnt 0x12345678#32], []) := rfl

theorem test_decode_wrRoBadCnt :
    decode .bus [0x28#8, 0x01#8, 0x78#8, 0x56#8, 0x34#8, 0x12#8] = .ok ([.wrRoBadCnt 0x12345678#32], []) := rfl

theorem test_decode_wrRoSynclossCnt :
    decode .bus [0x2C#8, 0x01#8, 0x78#8, 0x56#8, 0x34#8, 0x12#8] = .ok ([.wrRoSynclossCnt 0x12345678#32], []) := rfl

theorem test_decode_wrRoDiscardCnt :
    decode .bus [0x30#8, 0x01#8, 0x78#8, 0x56#8, 0x34#8, 0x12#8] = .ok ([.wrRoDiscardCnt 0x12345678#32], []) := rfl

theorem test_decode_wrRoId :
    decode .bus [0x34#8, 0x01#8, 0x78#8, 0x56#8, 0x34#8, 0x12#8] = .ok ([.wrRoId 0x12345678#32], []) := rfl

theorem test_decode_rdRsvd :
    decode .bus [0x40#8, 0x00#8, 0x78#8, 0x56#8, 0x34#8, 0x12#8] = .ok ([.rdRsvd 0x40#8], []) := rfl

theorem test_decode_wrRsvd :
    decode .bus [0x02#8, 0x01#8, 0x78#8, 0x56#8, 0x34#8, 0x12#8] = .ok ([.wrRsvd 0x02#8 0x12345678#32], []) := rfl

theorem test_decode_sample :
    decode .port [0x04#8, 0x00#8, 0x00#8, 0x80#8, 0x3F#8, 0xAA#8] = .ok ([.sample 0x3F800000#32], [0xAA#8]) := rfl

theorem test_decode_sampleLast :
    decode .port [0x06#8, 0x00#8, 0x00#8, 0x80#8, 0x3F#8] = .ok ([.sampleLast 0x3F800000#32], []) := rfl

theorem test_decode_beat : decode .port [0x01#8, 0x00#8, 0x00#8, 0x00#8, 0x00#8] = .ok ([.beat], []) := rfl

theorem test_decode_reset : decode .pin [0x01#8] = .ok ([.reset], []) := rfl

/-- A sample and a beat in one cycle (R75). -/
theorem test_decode_port_both :
    decode .port [0x05#8, 0x00#8, 0x00#8, 0x00#8, 0x00#8] = .ok ([.sample 0#32, .beat], []) := rfl

/-- An idle port and an inactive pin stand for no operation. -/
theorem test_decode_idle : decodePort 0b000#3 7#32 = .ok [] ∧ decodePin 0#1 = [] := ⟨rfl, rfl⟩

theorem test_decode_impossible :
    decode .port [0x02#8, 0x00#8, 0x00#8, 0x00#8, 0x00#8] = .error .impossiblePort := rfl

theorem test_decode_unused_bits :
    decode .bus [0x00#8, 0x02#8, 0x00#8, 0x00#8, 0x00#8, 0x00#8] = .error .unusedBits ∧
    decode .port [0x08#8, 0x00#8, 0x00#8, 0x00#8, 0x00#8] = .error .unusedBits ∧
    decode .pin [0x02#8] = .error .unusedBits := ⟨rfl, rfl, rfl⟩

theorem test_decode_truncated :
    decode .bus [0x00#8, 0x01#8, 0x00#8] = .error .truncated ∧ decode .port [] = .error .truncated ∧
    decode .pin [] = .error .truncated := ⟨rfl, rfl, rfl⟩

/-- The four bytes of a sample in file order (R52). -/
theorem test_sample_bytes : sampleOfFile 0x00#8 0x00#8 0x80#8 0x3F#8 = 0x3F800000#32 := by decide

/-! ## States -/

/-- Enabled, as reset leaves the rest. -/
def on : State := { State.reset with en := true }

/-- Inside a frame, in the high part of a bit. -/
def inFrame : State := { on with dec := { Decoder.reset with phase := .collecting, lvl := true, run := 4#16 } }

/-- Inside a frame, in the low part of a bit. -/
def inLow : State := { on with
  dec := { Decoder.reset with phase := .collecting, lvl := false, run := 4#16, nbits := 1#4, bitTotal := 1#16 } }

/-- Inside the preamble 0b1010, in the high part of its first bit. -/
def inPreamble : State := { on with
  cfg := { ConfigRegs.reset with preLen := 4#5, preamble := 0x000A#16 }
  dec := { Decoder.reset with phase := .syncing, lvl := true, run := 8#16 } }

/-- A whole byte has come; the closing low run is one sample short of the gap. -/
def nearGap : State := { on with
  buf := 0x12#8 :: List.replicate 31 0#8
  dec := { Decoder.reset with phase := .collecting, lvl := false, run := 15#16, nbytes := 1#8, bitTotal := 8#16 } }

/-- A packet of one byte. -/
def pk (x : Byte) : Packet := { data := [x], bitCount := 8#16, validCheck := true }

/-- A packet waits in EMIT behind a full queue (E2). -/
def waiting : State := { on with
  dec := { Decoder.reset with
    phase := .emit, lvl := false, run := 16#16, nbytes := 1#8, bitTotal := 8#16, pend := some (pk 0x03#8) }
  queue := [pk 0x01#8, pk 0x02#8] }

/-- One packet of two bytes is queued. -/
def queued : State := { on with queue := [{ data := [0x12#8, 0x34#8], bitCount := 16#16, validCheck := true }] }

/-- A state in which the host drives the operation next. -/
def driving (i : Instr) (s : State) : State := { s with host := [{ inputs := i.inputs, hold := false }] }

/-! ## One step of each operation, against 95_test_vectors.md section 5 -/

theorem test_rdCtrl_at_reset : (effect .rdCtrl State.reset).out.regRdata = 0x00000000#32 := by decide

theorem test_rdStatus_at_reset : (effect .rdStatus State.reset).out.regRdata = 0x00000000#32 := by decide

theorem test_rdCfg_at_reset : (effect .rdCfg State.reset).out.regRdata = 0x00000000#32 := by decide

theorem test_rdTol_at_reset : (effect .rdTol State.reset).out.regRdata = 0x00004000#32 := by decide

theorem test_rdShortNom_at_reset : (effect .rdShortNom State.reset).out.regRdata = 0x00000004#32 := by decide

theorem test_rdLongNom_at_reset : (effect .rdLongNom State.reset).out.regRdata = 0x00000008#32 := by decide

theorem test_rdGapMin_at_reset : (effect .rdGapMin State.reset).out.regRdata = 0x00000010#32 := by decide

theorem test_rdThresh_at_reset : (effect .rdThresh State.reset).out.regRdata = 0x3F000000#32 := by decide

theorem test_rdPreamble_at_reset : (effect .rdPreamble State.reset).out.regRdata = 0x00000000#32 := by decide

theorem test_rdPktCnt_at_reset : (effect .rdPktCnt State.reset).out.regRdata = 0x00000000#32 := by decide

theorem test_rdBadCnt_at_reset : (effect .rdBadCnt State.reset).out.regRdata = 0x00000000#32 := by decide

theorem test_rdSynclossCnt_at_reset : (effect .rdSynclossCnt State.reset).out.regRdata = 0x00000000#32 := by decide

theorem test_rdDiscardCnt_at_reset : (effect .rdDiscardCnt State.reset).out.regRdata = 0x00000000#32 := by decide

theorem test_rdId_at_reset : (effect .rdId State.reset).out.regRdata = 0x4F4F4B01#32 := by decide

theorem test_rdRsvd_at_reset : (effect (.rdRsvd 0xFC#8) State.reset).out.regRdata = 0x00000000#32 := by decide

/-- PHASE 4, WERR, OUTQ_COUNT 2, OUTQ_FULL, LAST_EVT 9 (R32). -/
theorem test_rdStatus_fields : 
    (effect .rdStatus { waiting with lastEvt := .packetOk, werr := true }).out.regRdata = 0x00091214#32 := by decide

theorem test_rdCtrl_enabled : (effect .rdCtrl on).out.regRdata = 1#32 := by decide

/-- G1. -/
theorem test_wrCtrl_all : (effect (.wrCtrl 0x7#32) State.reset) = on := rfl

/-- P5: TOL = 0 is refused, CFG_ERR and event 8. -/
theorem test_wrCtrl_refused : 
    (effect (.wrCtrl 1#32) { State.reset with cfg := { ConfigRegs.reset with tol := 0#32 } }).en = false ∧
    statusWord (effect (.wrCtrl 1#32) { State.reset with cfg := { ConfigRegs.reset with tol := 0#32 } }) = 0x00080008#32 := by decide

theorem test_wrStatus_clears : (effect (.wrStatus 0x10#32) { on with werr := true }).werr = false ∧
    (effect (.wrStatus 0xFFFFFFEF#32) { on with werr := true }).werr = true := by decide

theorem test_wrCfg_warl : cfgWord (effect (.wrCfg 0xFFFFFFFF#32) State.reset) = 0x00001007#32 := by decide

theorem test_wrCfg_stored : cfgWord (effect (.wrCfg 0x00000406#32) State.reset) = 0x00000406#32 := by decide

theorem test_wrTol_any : (effect (.wrTol 0xFFFFFFFF#32) State.reset).cfg.tol = 0xFFFFFFFF#32 := by decide

/-- G7. -/
theorem test_wrTol_locked : (effect (.wrTol 0x2000#32) on).cfg.tol = 0x4000#32 ∧ (effect (.wrTol 0x2000#32) on).werr = true := by decide

theorem test_wrShortNom_low : (effect (.wrShortNom 0x00010005#32) State.reset).cfg.shortNom = 0x0005#16 := by decide

theorem test_wrLongNom_low : (effect (.wrLongNom 0xFFFFFFFF#32) State.reset).cfg.longNom = 0xFFFF#16 := by decide

theorem test_wrGapMin_zero : (effect (.wrGapMin 0x00010000#32) State.reset).cfg.gapMin = 0x0001#16 := by decide

theorem test_wrGapMin_top : (effect (.wrGapMin 0x0000FFFF#32) State.reset).cfg.gapMin = 0xFFFF#16 := by decide

theorem test_wrThresh_nan : (effect (.wrThresh 0x7FC00001#32) State.reset).cfg.thresh = 0x7FC00001#32 := by decide

theorem test_wrPreamble_low : (effect (.wrPreamble 0x1234ABCD#32) State.reset).cfg.preamble = 0xABCD#16 := by decide

theorem test_wrRoPktCnt_ignored : effect (.wrRoPktCnt 5#32) on = on := rfl

theorem test_wrRoBadCnt_ignored : effect (.wrRoBadCnt 5#32) on = on := rfl

theorem test_wrRoSynclossCnt_ignored : effect (.wrRoSynclossCnt 5#32) on = on := rfl

theorem test_wrRoDiscardCnt_ignored : effect (.wrRoDiscardCnt 5#32) on = on := rfl

theorem test_wrRoId_ignored : effect (.wrRoId 5#32) on = on := rfl

theorem test_wrRsvd_ignored : effect (.wrRsvd 0x02#8 5#32) State.reset = State.reset := rfl

/-- F1: the stream start counts as a gap. -/
theorem test_sample_opens : 
    effect (.sample 0x3F800000#32) on =
      { on with dec := { Decoder.reset with phase := .collecting, lvl := true, run := 1#16 } } := by decide

/-- F15: the sample that makes the closing low run 16 long completes the frame. -/
theorem test_sample_completes : 
    let t := effect (.sample 0x00000000#32) nearGap
    t.queue = [pk 0x12#8] ∧ t.cnt.pkt = 1#32 ∧ t.lastEvt = .packetOk ∧ t.dec.phase = .searching := by decide

/-- S3. -/
theorem test_sampleLast_completes : 
    let t := effect (.sampleLast 0x00000000#32) nearGap
    t.queue = [pk 0x12#8] ∧ t.lastEvt = .packetOk ∧ t.cnt.discard = 0#32 ∧ t.dec.run = 0xFFFF#16 := by decide

/-- S8; the frame state is that of the frame just opened. -/
theorem test_sampleLast_opens_and_drops : 
    let t := effect (.sampleLast 0x3F800000#32) on
    t.dec = Decoder.reset ∧ t.lastEvt = .incompleteStreamEnd ∧ t.cnt.discard = 1#32 := by decide

/-- E1. -/
theorem test_beat_advances : (effect .beat queued).beat = 1#8 ∧ (effect .beat queued).queue = queued.queue := by decide

theorem test_beat_pops : (effect .beat { queued with beat := 2#8 }).queue = [] ∧ (effect .beat { queued with beat := 2#8 }).beat = 0#8 := by decide

/-- X1. -/
theorem test_reset_all : effect .reset { waiting with cfg := { ConfigRegs.reset with tol := 0x199A#32 } } = State.reset := rfl

/-! ## Operand forms, against 95_test_vectors.md sections 2.1, 2.2 and 3 -/

theorem test_gtF_table : 
    gtF 0x3F800000#32 0x3F000000#32 = true ∧
    gtF 0x3F000000#32 0x3F000000#32 = false ∧
    gtF 0x00000000#32 0x80000000#32 = false ∧
    gtF 0x80000000#32 0x00000000#32 = false ∧
    gtF 0xBF800000#32 0x3F000000#32 = false ∧
    gtF 0x7F800000#32 0x7F7FFFFF#32 = true ∧
    gtF 0x00000001#32 0x00000000#32 = true ∧
    gtF 0x80000001#32 0x00000000#32 = false ∧
    gtF 0xBF800000#32 0xC0000000#32 = true ∧
    gtF 0xFF800000#32 0xFF7FFFFF#32 = false := by decide

theorem test_slice_table : 
    slice 0x3F000000#32 0x3F800000#32 = true ∧
    slice 0x3F000000#32 0x3F000000#32 = false ∧
    slice 0x3F000000#32 0x3F000001#32 = true ∧
    slice 0x3F000000#32 0x3F333333#32 = true ∧
    slice 0x3F000000#32 0x7F800000#32 = true ∧
    slice 0x3F000000#32 0x7FC00000#32 = false ∧
    slice 0x3F000000#32 0xFF800000#32 = false ∧
    slice 0x3F000000#32 0x80000000#32 = false ∧
    slice 0x3F000000#32 0xBF000000#32 = false := by decide

theorem test_slice_nan_threshold : slice 0x7FC00000#32 0x3F800000#32 = false ∧ slice 0xBF800000#32 0xBF000000#32 = true := by decide

theorem test_class_reset : 
    ((List.range 13).map fun n => classify ConfigRegs.reset (BitVec.ofNat 16 n)) =
      [.none, .none, .none, .short, .short, .short, .long, .long, .long, .long, .long, .none, .none] := by decide

/-- TOL = 0.5: lengths 4 to 6 lie in both windows and SHORT wins. -/
theorem test_class_overlap : 
    ((List.range 14).map fun n => classify { ConfigRegs.reset with tol := 0x8000#32 } (BitVec.ofNat 16 n)) =
      [.none, .none, .short, .short, .short, .short, .short, .long, .long, .long, .long, .long, .long, .none] := by decide

theorem test_class_zero_short : 
    classify { ConfigRegs.reset with shortNom := 0#16 } 1#16 = .none ∧
    classify { ConfigRegs.reset with shortNom := 0#16 } 4#16 = .none := by decide

theorem test_sums : 
    sum8 [0xDE#8, 0xAD#8, 0xBE#8, 0xEF#8] = 0x38#8 ∧ xor8 [0xDE#8, 0xAD#8, 0xBE#8, 0xEF#8] = 0x22#8 := by decide

theorem test_crc_vectors : 
    crc8 [0xDE#8, 0xAD#8, 0xBE#8, 0xEF#8] = 0xCA#8 ∧ crc8 [0xA5#8] = 0x72#8 ∧ crc8 [] = 0x00#8 := by
  simp [crc8, crc8Byte, crc8Bit]

/-- The check value of R154. -/
theorem test_crc_check_value : 
    crc8 [0x31#8, 0x32#8, 0x33#8, 0x34#8, 0x35#8, 0x36#8, 0x37#8, 0x38#8, 0x39#8] = 0xF4#8 := by
  simp [crc8, crc8Byte, crc8Bit]

theorem test_check_modes : 
    validCheck .none [0x12#8, 0x34#8, 0x46#8] = true ∧ validCheck .sum8 [0x12#8, 0x34#8, 0x46#8] = true ∧
    validCheck .xor8 [0x12#8, 0x34#8, 0x46#8] = false ∧ validCheck .xor8 [0x12#8, 0x34#8, 0x26#8] = true ∧
    validCheck .sum8 [0x01#8] = false ∧ validCheck .sum8 [0x00#8] = true := by decide

theorem test_bit_of : bitOf ConfigRegs.reset .long = true ∧ bitOf { ConfigRegs.reset with bitpol := true } .long = false := by decide

/-! ## The host's placement of an operation (log entries 3 and 5) -/

theorem test_table_words :
    decodeTableWord 16 0x104 = some (.wrStatus 0#32) ∧ decodeTableWord 8 0b100 = some (.sample 0#32) ∧
    decodeTableWord 8 0b110 = some (.sampleLast 0#32) ∧ decodeTableWord 8 0b001 = some .beat ∧
    decodeTableWord 1 1 = some .reset ∧ decodeTableWord 8 0b010 = none := ⟨rfl, rfl, rfl, rfl, rfl, rfl⟩

/-- The step after placing WR_CTRL with zeros for data runs it. -/
theorem test_placed_write : cycleOps (State.reset.withFetchWord 16 0x100) (nextDrive (State.reset.withFetchWord 16 0x100)).inputs =
    .ok [.wrCtrl 0#32] := rfl

theorem test_placed_sample : cycleOps (State.reset.withFetchWord 8 4) (nextDrive (State.reset.withFetchWord 8 4)).inputs =
    .ok [.sample 0#32] := rfl

theorem test_placed_beat : cycleOps (State.reset.withFetchWord 8 1) (nextDrive (State.reset.withFetchWord 8 1)).inputs =
    .ok [.beat] := rfl

/-! ## States that meet the invariant -/

theorem test_inv_on : State.Inv on := by
  constructor <;> simp [on, State.reset, State.resetOf, Decoder.reset, ConfigRegs.reset, Params.default, Params.legal,
    beatInRange, tolLegal, Phase.isOpen]

theorem test_inv_inFrame : State.Inv inFrame := by
  constructor <;> simp [inFrame, on, State.reset, State.resetOf, Decoder.reset, ConfigRegs.reset, Params.default,
    Params.legal, beatInRange, tolLegal]

theorem test_inv_inPreamble : State.Inv inPreamble := by
  constructor <;> simp [inPreamble, on, State.reset, State.resetOf, Decoder.reset, ConfigRegs.reset, Params.default,
    Params.legal, beatInRange, tolLegal]

theorem test_inv_nearGap : State.Inv nearGap := by
  constructor <;> simp [nearGap, on, State.reset, State.resetOf, Decoder.reset, ConfigRegs.reset, Params.default,
    Params.legal, beatInRange, tolLegal]

theorem test_inv_waiting : State.Inv waiting := by
  constructor <;> simp [waiting, pk, on, State.reset, State.resetOf, Decoder.reset, ConfigRegs.reset, Params.default,
    Params.legal, beatInRange, tolLegal, Packet.wf, Phase.isOpen]

/-- The host's schedule does not matter to the invariant. -/
theorem test_inv_driving (i : Instr) (s : State) (h : State.Inv s) : State.Inv (driving i s) := { h with }

/-! ## Witnesses: a state and operands that meet the hypotheses of each statement together -/

/-- The inputs of a cycle that reads the register at an address. -/
def reading (a : Byte) : Inputs := { Inputs.idle with regSel := true, regAddr := a }

/-- The inputs of a cycle that writes CTRL while a sample is offered. -/
def stopping (w : Word) : Inputs :=
  { Inputs.idle with regSel := true, regWr := true, regWdata := w, sValid := true }

/-- The drive of the statements about transmission: the consumer takes a beat. -/
def taking : Drive := { inputs := { Inputs.idle with mReady := true }, hold := false }

theorem test_hyp_OperationMap : decodePort 0b101#3 7#32 = .ok [.sample 7#32, .beat] ∧
    decodePort 0b110#3 7#32 = .ok [.sampleLast 7#32] := ⟨rfl, rfl⟩

theorem test_hyp_DecodeOfEncode : (Instr.rdRsvd 0x38#8).wellFormed = true ∧ (Instr.wrRsvd 0x01#8 0#32).wellFormed = true ∧
    (Instr.wrRoId 5#32).wellFormed = true := by decide

/-- One for each step of the cycle. -/
theorem test_hyp_StepRunsDecodedOperation :
    cycleOps (driving .reset on) Instr.reset.inputs = .ok [.reset] ∧
    cycleOps (driving .rdTol on) Instr.rdTol.inputs = .ok [.rdTol] ∧
    cycleOps (driving .beat queued) Instr.beat.inputs = .ok [.beat] ∧
    cycleOps (driving (.sample 7#32) on) (Instr.sample 7#32).inputs = .ok [.sample 7#32] ∧
    cycleOps (driving (.wrTol 7#32) on) (Instr.wrTol 7#32).inputs = .ok [.wrTol 7#32] ∧
    (driving .reset on).host = [{ inputs := Instr.reset.inputs, hold := false }] := ⟨rfl, rfl, rfl, rfl, rfl, rfl⟩

theorem test_hyp_OperationCanBeDriven :
    (Instr.sampleLast 7#32).wellFormed = true ∧ stageOf (.sampleLast 7#32) = .sample ∧ sReady on = true ∧
    Instr.beat.wellFormed = true ∧ stageOf .beat = .output ∧ mValid queued = true := by decide

theorem test_hyp_CycleOrder : (Instr.reset.inputs).rst = true ∧ (Instr.rdTol.inputs).rst = false ∧
    waiting.dec.phase = .emit := by decide

theorem test_hyp_RegisterBusReadData :
    cycle (reading 0x0C#8) on = .next (cycleNext (reading 0x0C#8) on) ∧ (reading 0x0C#8).rst = false ∧
    (reading 0x0C#8).regSel = true ∧ (reading 0x0C#8).regWr = false ∧
    exec (decodeBus (busOp false (reading 0x0C#8).regAddr) (reading 0x0C#8).regWdata) on =
      .next (effect .rdTol on) :=
  ⟨cycle_eq _ _, rfl, rfl, rfl, rfl⟩

/-- An idle cycle, a cycle that writes, and a reset cycle of each of the two kinds. -/
theorem test_hyp_RegisterBusReadData_zero :
    (∀ p, cycle p on = .next (cycleNext p on)) ∧ Inputs.idle.rst = false ∧ Inputs.idle.regSel = false ∧
    (stopping 0#32).rst = false ∧ (stopping 0#32).regWr = true ∧
    (Instr.reset.inputs).rst = true ∧ (Instr.reset.inputs).regSel = false ∧
    ({ stopping 0#32 with rst := true } : Inputs).regWr = true :=
  ⟨fun _ => cycle_eq _ _, rfl, rfl, rfl, rfl, rfl, rfl, rfl⟩

theorem test_hyp_SamplePortHandshake :
    cycleOps on (Instr.sampleLast 7#32).inputs = .ok [.sampleLast 7#32] ∧ sReady on = true ∧ sReady waiting = false ∧
    sReady State.reset = false ∧ Inputs.idle.sValid = false := ⟨rfl, rfl, rfl, rfl, rfl⟩

theorem test_hyp_OutputPortSignals :
    (∀ s, step s = .next (cycleNext (nextDrive s).inputs (takeDrive s))) ∧ State.reset.queue = [] ∧ queued.queue ≠ [] ∧
    cycleOps queued Instr.beat.inputs = .ok [.beat] := ⟨step_eq, rfl, by decide, rfl⟩

/-- The header, the first data beat and the last one. -/
theorem test_hyp_BeatFormats :
    queued.queue = { data := [0x12#8, 0x34#8], bitCount := 16#16, validCheck := true } :: [] ∧ queued.beat = 0#8 ∧
    ({ queued with beat := 1#8 } : State).beat.toNat = 1 ∧ ({ queued with beat := 2#8 } : State).beat.toNat = 2 := by
  decide

theorem test_hyp_ResetOperation : (Instr.reset.inputs).rst = true ∧ ({ stopping 1#32 with rst := true } : Inputs).rst = true := by
  decide

theorem test_hyp_InvariantAtReset : ({ maxBytes := 1, outqDepth := 1 } : Params).legal = true ∧
    ({ maxBytes := 255, outqDepth := 15 } : Params).legal = true ∧
    ({ maxBytes := 256, outqDepth := 15 } : Params).legal = false := by decide

theorem test_hyp_StepKeepsInvariant : State.Inv (driving (.sample 0#32) nearGap) ∧
    ∃ t, step (driving (.sample 0#32) nearGap) = .next t :=
  ⟨test_inv_driving _ _ test_inv_nearGap, _, step_eq _⟩

theorem test_hyp_DisabledDecoderStaysReset :
    (driving (.wrCtrl 0#32) inFrame).en = true ∧
    step (driving (.wrCtrl 0#32) inFrame) =
      .next (cycleNext (Instr.wrCtrl 0#32).inputs (takeDrive (driving (.wrCtrl 0#32) inFrame))) ∧
    (cycleNext (Instr.wrCtrl 0#32).inputs (takeDrive (driving (.wrCtrl 0#32) inFrame))).en = false :=
  ⟨rfl, step_eq _, rfl⟩

theorem test_hyp_ConfigurationFixedWhileEnabled :
    (driving (.wrTol 5#32) on).en = true ∧ (nextDrive (driving (.wrTol 5#32) on)).inputs.rst = false ∧
    ∃ t, step (driving (.wrTol 5#32) on) = .next t := ⟨rfl, rfl, _, step_eq _⟩

/-- For ReadControlStatusAndCfg, ReadConfigurationRegisters and ReadCountersAndId. -/
theorem test_hyp_ReadRegisters :
    (exec .rdStatus State.reset = .next (readReg 0#32 State.reset)) ∧
    exec .rdTol State.reset = .next (readReg 0x4000#32 State.reset) ∧
    exec .rdPktCnt (push (pk 5#8) State.reset) = .next (readReg 1#32 (push (pk 5#8) State.reset)) := ⟨rfl, rfl, rfl⟩

theorem test_hyp_ReadsHaveNoSideEffect :
    (reading 0x04#8).regSel = true ∧ (reading 0x04#8).regWr = false ∧ (∃ t, cycle (reading 0x04#8) inFrame = .next t) ∧
    ∃ u, cycle { reading 0x04#8 with regSel := false } inFrame = .next u :=
  ⟨rfl, rfl, ⟨_, cycle_eq _ _⟩, ⟨_, cycle_eq _ _⟩⟩

/-- The boundary addresses of each clause: the first and last read-only, the first reserved ones. -/
theorem test_hyp_ReadOnlyAndReservedRegisters :
    0x24#8 ∈ [0x24#8, 0x28#8, 0x2C#8, 0x30#8, 0x34#8] ∧ 0x34#8 ∈ [0x24#8, 0x28#8, 0x2C#8, 0x30#8, 0x34#8] ∧
    0x38 ≤ (0x38#8 : Byte).toNat ∧ (0x01#8 : Byte).toNat % 4 ≠ 0 ∧ 0x38 ≤ (0xFF#8 : Byte).toNat := by decide

/-- For WriteCfg and WriteConfigurationRegisters: locked and open; a NaN; two preambles that agree below PRE_LEN only. -/
theorem test_hyp_ConfigurationWrites : on.en = true ∧ State.reset.en = false ∧ isNaN 0x7FC00000#32 = true ∧
    inPreamble.cfg.preLen = 4#5 ∧ (0#5).toNat < inPreamble.cfg.preLen.toNat ∧
    (∀ j : Nat, j < 4 → (0xFFFA#16 : Half).getLsbD j = (0x000A#16 : Half).getLsbD j) ∧
    (0xFFFA#16 : Half) ≠ 0x000A#16 := by decide

/-- Disabled, and with EN kept, in a cycle that also accepts a sample. -/
theorem test_hyp_ControlWriteWinsTheCycle :
    (stopping 0#32).rst = false ∧ (stopping 0#32).regSel = true ∧ (stopping 0#32).regWr = true ∧
    (stopping 0#32).regAddr = 0x00#8 ∧ (∃ t, cycle (stopping 0#32) nearGap = .next t) ∧
    (∃ u, cycle { stopping 0#32 with regSel := false } nearGap = .next u) ∧ nearGap.en = true ∧
    (stopping 0#32).regWdata.getLsbD 0 = false ∧ (stopping 0#32).regWdata.getLsbD 2 = false ∧
    (stopping 5#32).regWdata.getLsbD 0 = nearGap.en ∧ (stopping 4#32).regWdata.getLsbD 2 = true :=
  ⟨rfl, rfl, rfl, rfl, ⟨_, cycle_eq _ _⟩, ⟨_, cycle_eq _ _⟩, rfl, by decide, by decide, by decide, by decide⟩

theorem test_hyp_SlicerLevel : isNaN 0x7F800001#32 = true ∧ isNaN 0xFFFFFFFF#32 = true ∧ isNaN 0x7F800000#32 = false := by
  decide

/-- A NaN threshold while enabled, with a sample that any other threshold would see. -/
theorem test_hyp_SlicerLevel_threshold :
    let s : State := { on with cfg := { on.cfg with thresh := 0x7FC00000#32 } }
    isNaN s.cfg.thresh = true ∧ s.dec.phase = .searching ∧ sReady s = true ∧ ∃ t, exec (.sample 0x7F800000#32) s = .next t :=
  ⟨by decide, rfl, by decide, _, exec_eq_effect _ _⟩

theorem test_hyp_WindowIsClosedInterval : 1 ≤ (1#16 : Half).toNat ∧ inWin 0xFFFF#32 1#16 0#16 = false ∧
    (0xFFFF#32 : Word).toNat < 65536 ∧ (0#32 : Word).toNat < 65536 := by decide

theorem test_hyp_SampleTracksTheLine : sReady on = true ∧ sReady inFrame = true := by decide

theorem test_hyp_ConstantInputOnlyCounts : sReady on = true ∧ on.dec.phase = .searching ∧
    slice on.cfg.thresh 0x00000000#32 = on.dec.lvl := by decide

/-- One state for each clause: a gap behind it, a short low in SEARCHING, and inside a frame a low of no class and one that is
SHORT. -/
theorem test_hyp_SampleOnRisingEdge :
    sReady on = true ∧ on.dec.lvl = false ∧ slice on.cfg.thresh 0x3F800000#32 = true ∧ on.dec.phase = .searching ∧
    on.cfg.gapMin.toNat ≤ on.dec.run.toNat ∧
    ({ on with dec := { on.dec with run := 15#16 } } : State).dec.run.toNat < on.cfg.gapMin.toNat ∧
    sReady inLow = true ∧ inLow.dec.lvl = false ∧ inLow.dec.phase.isOpen = true ∧
    classify inLow.cfg inLow.dec.run = .short ∧
    classify inLow.cfg ({ inLow with dec := { inLow.dec with run := 11#16 } } : State).dec.run = .none := by decide

theorem test_hyp_SampleOnFallingEdge :
    sReady inFrame = true ∧ inFrame.dec.lvl = true ∧ slice inFrame.cfg.thresh 0x00000000#32 = false ∧
    inFrame.dec.phase.isOpen = true ∧ classify inFrame.cfg inFrame.dec.run = .short ∧
    classify inFrame.cfg ({ inFrame with dec := { inFrame.dec with run := 12#16 } } : State).dec.run = .none ∧
    ({ inFrame with dec := { inFrame.dec with phase := .searching } } : State).dec.phase = .searching := by decide

/-- At the sample before the gap, where a gap is reached, and at saturation, where none is. -/
theorem test_hyp_SampleInsideARun :
    sReady nearGap = true ∧ slice nearGap.cfg.thresh 0x00000000#32 = nearGap.dec.lvl ∧
    nearGap.dec.run.toNat + 1 = nearGap.cfg.gapMin.toNat ∧
    slice on.cfg.thresh 0x00000000#32 = on.dec.lvl ∧ on.dec.run.toNat + 1 ≠ on.cfg.gapMin.toNat := by decide

/-- A bit inside a byte, the eighth with room, the eighth with the buffer full. -/
theorem test_hyp_PayloadBits :
    inFrame.dec.phase = .collecting ∧ inFrame.dec.nbits.toNat < 7 ∧
    ({ inFrame with dec := { inFrame.dec with nbits := 7#4 } } : State).dec.nbits.toNat = 7 ∧
    inFrame.dec.nbytes.toNat ≠ inFrame.params.maxBytes ∧
    ({ inFrame with dec := { inFrame.dec with nbytes := 32#8 } } : State).dec.nbytes.toNat = inFrame.params.maxBytes := by
  decide

theorem test_hyp_EightBitsMakeAByte :
    inFrame.dec.phase = .collecting ∧ inFrame.dec.nbits = 0#4 ∧ inFrame.dec.cur = 0#8 ∧
    inFrame.dec.nbytes.toNat < inFrame.params.maxBytes := by decide

/-- The first preamble bit of 0b1010 is 1; so 1 matches and 0 does not. -/
theorem test_hyp_PreambleBits :
    inPreamble.dec.phase = .syncing ∧ inPreamble.dec.preCnt.toNat < inPreamble.cfg.preLen.toNat ∧
    true = inPreamble.cfg.preamble.getLsbD (inPreamble.cfg.preLen.toNat - 1 - inPreamble.dec.preCnt.toNat) ∧
    false ≠ inPreamble.cfg.preamble.getLsbD (inPreamble.cfg.preLen.toNat - 1 - inPreamble.dec.preCnt.toNat) := by decide

theorem test_hyp_GapClosesTheFrame :
    on.dec.phase = .searching ∧ inPreamble.dec.phase = .syncing ∧ (inLow.dec.phase = .collecting ∧ inLow.dec.nbits ≠ 0#4) ∧
    (inFrame.dec.phase = .collecting ∧ inFrame.dec.nbytes = 0#8) ∧
    (nearGap.dec.phase = .collecting ∧ nearGap.dec.nbits = 0#4 ∧ nearGap.dec.nbytes ≠ 0#8) := by decide

theorem test_hyp_CompletedFrameIsEmitted :
    nearGap.queue.length < nearGap.params.outqDepth ∧ waiting.params.outqDepth ≤ waiting.queue.length := by decide

/-- A frame that the last sample leaves open, and a line outside a frame. -/
theorem test_hyp_StreamEndClosesTheStream :
    sReady inFrame = true ∧ exec (.sample 0x3F800000#32) inFrame = .next (effect (.sample 0x3F800000#32) inFrame) ∧
    (effect (.sample 0x3F800000#32) inFrame).dec.phase.isOpen = true ∧
    (effect (.sample 0x00000000#32) on).dec.phase.isOpen = false := ⟨by decide, exec_eq_effect _ _, by decide, by decide⟩

/-- One state for each phase. -/
theorem test_hyp_PhaseTransitions :
    State.Inv on ∧ State.Inv inPreamble ∧ State.Inv nearGap ∧ State.Inv waiting ∧
    on.dec.phase = .searching ∧ inPreamble.dec.phase = .syncing ∧ nearGap.dec.phase = .collecting ∧
    waiting.dec.phase = .emit ∧ ∀ s, ∃ t, step s = .next t :=
  ⟨test_inv_on, test_inv_inPreamble, test_inv_nearGap, test_inv_waiting, rfl, rfl, rfl, rfl, fun _ => ⟨_, step_eq _⟩⟩

theorem test_hyp_FrameNeedsAGap :
    (driving (.sample 0x3F800000#32) on).dec.phase = .searching ∧
    step (driving (.sample 0x3F800000#32) on) = .next (cycleNext (Instr.sample 0x3F800000#32).inputs on) ∧
    (cycleNext (Instr.sample 0x3F800000#32).inputs on).dec.phase.isOpen = true :=
  ⟨rfl, step_eq _, by decide⟩

/-- For AtMostOneEventPerCycle, QueueIsFirstInFirstOut and EmittedPacketShape: one with a WR_STATUS, one with a sample, one that pops the head. -/
theorem test_hyp_OneCycle :
    (∀ p s, ∃ t, cycle p s = .next t) ∧ (Instr.wrStatus 0x10#32).inputs.rst = false ∧
    ¬ ((Instr.wrStatus 0x10#32).inputs.regSel = true ∧ (Instr.wrStatus 0x10#32).inputs.regWr = true ∧
      (Instr.wrStatus 0x10#32).inputs.regAddr = 0x00#8) ∧
    (Instr.sample 0#32).inputs.rst = false ∧ State.Inv nearGap ∧ taking.inputs.rst = false ∧ State.Inv waiting :=
  ⟨fun _ _ => ⟨_, cycle_eq _ _⟩, rfl, by decide, rfl, test_inv_nearGap, rfl, test_inv_waiting⟩

/-- Disabled with an illegal tolerance: the state in which an enable is refused. -/
def badTol : State := { State.reset with cfg := { ConfigRegs.reset with tol := 0x00010000#32 } }

theorem test_inv_badTol : State.Inv badTol := by
  constructor <;> simp [badTol, State.reset, State.resetOf, Decoder.reset, ConfigRegs.reset, Params.default, Params.legal,
    beatInRange, Phase.isOpen]

/-- For AtMostOneEventPerCycle: a WR_CTRL whose enable is refused, and one in a cycle whose sample records an event. -/
theorem test_hyp_AtMostOneEventPerCycle_control :
    State.Inv badTol ∧ State.Inv nearGap ∧ (stopping 1#32).rst = false ∧ (stopping 1#32).regSel = true ∧
    (stopping 1#32).regWr = true ∧ (stopping 1#32).regAddr = 0x00#8 ∧
    ((stopping 1#32).regWdata.getLsbD 0 = true ∧ badTol.en = false ∧
      ¬ (0 < badTol.cfg.tol.toNat ∧ badTol.cfg.tol.toNat < 0x10000)) ∧ nearGap.en = true ∧
    ∀ p s, ∃ t, cycle p s = .next t :=
  ⟨test_inv_badTol, test_inv_nearGap, rfl, rfl, rfl, rfl, by decide, rfl, fun _ _ => ⟨_, cycle_eq _ _⟩⟩

theorem test_hyp_ChecksumTrailer : CheckMode.none.code = 0#2 ∧ CheckMode.sum8.code = 1#2 ∧ CheckMode.xor8.code = 2#2 ∧
    CheckMode.crc8.code = 3#2 := by decide

theorem test_hyp_BeatStepEffect :
    State.reset.queue = [] ∧ queued.queue.length = 1 ∧ queued.beat.toNat < 2 ∧ queued.beat.toNat < 255 ∧
    ({ queued with beat := 2#8 } : State).beat.toNat = 2 := by decide

theorem test_hyp_EmitStallsTheSamplePort :
    waiting.dec.phase = .emit ∧ waiting.queue = pk 0x01#8 :: [pk 0x02#8] ∧
    waiting.params.outqDepth ≤ waiting.queue.length ∧ Inputs.idle.mReady = false ∧
    waiting.beat.toNat ≠ (pk 0x01#8).data.length ∧ Inputs.idle.rst = false ∧ Inputs.idle.regSel = false ∧
    (reading 0#8).regWr = false ∧ ∃ t, cycle Inputs.idle waiting = .next t :=
  ⟨rfl, rfl, by decide, rfl, by decide, rfl, rfl, rfl, _, cycle_eq _ _⟩

theorem test_hyp_EmitRetryPushesPending :
    waiting.dec.phase = .emit ∧ waiting.dec.pend = some (pk 0x03#8) ∧ waiting.queue = pk 0x01#8 :: [pk 0x02#8] ∧
    [pk 0x02#8].length < waiting.params.outqDepth ∧
    ({ waiting with beat := 1#8 } : State).beat.toNat = (pk 0x01#8).data.length ∧ taking.inputs.mReady = true ∧
    taking.inputs.rst = false ∧ taking.inputs.regSel = false ∧
    ∃ t, cycle taking.inputs { waiting with beat := 1#8 } = .next t :=
  ⟨rfl, rfl, rfl, by decide, by decide, rfl, rfl, rfl, _, cycle_eq _ _⟩

theorem test_hyp_EmitEndsWhenHeadIsDrained :
    waiting.dec.phase = .emit ∧ waiting.dec.pend = some (pk 0x03#8) ∧ waiting.queue = pk 0x01#8 :: [pk 0x02#8] ∧
    waiting.queue.length = waiting.params.outqDepth ∧ waiting.beat.toNat + 1 = (pk 0x01#8).data.length ∧ 0 ≤ 1 ∧ 1 ≤ 1 ∧
    (pk 0x01#8).data.length ≤ 255 ∧
    ({ waiting with host := [taking, taking] } : State).host =
      List.replicate (1 + 1) { inputs := { Inputs.idle with mReady := true }, hold := false } ++ [] := by decide

/-- The header only, and up to the last byte. -/
theorem test_hyp_PacketLeavesInOrder :
    queued.dec.phase ≠ .emit ∧ queued.queue = { data := [0x12#8, 0x34#8], bitCount := 16#16, validCheck := true } :: [] ∧
    queued.beat = 0#8 ∧
    ({ queued with host := [taking] } : State).host =
      List.replicate (0 + 1) { inputs := { Inputs.idle with mReady := true }, hold := false } ++ [] ∧
    ({ queued with host := [taking, taking, taking] } : State).host =
      List.replicate (2 + 1) { inputs := { Inputs.idle with mReady := true }, hold := false } ++ [] := by decide

theorem test_hyp_CrcOfPassingFrameIsZero : [0x00#8] ≠ ([] : List Byte) ∧
    [0x12#8, 0x34#8].length = [0xFF#8, 0x00#8].length := by decide

/-- Two states that differ in the last byte of the buffer. -/
theorem test_hyp_StaleBufferBytesNeverMatter :
    sameButStaleBytes nearGap { nearGap with buf := 0x12#8 :: List.replicate 31 0xFF#8 } ∧
    nearGap.buf ≠ 0x12#8 :: List.replicate 31 0xFF#8 ∧ ∀ s, ∃ t, step s = .next t :=
  ⟨⟨rfl, rfl, rfl⟩, by decide, fun _ => ⟨_, step_eq _⟩⟩

theorem test_hyp_TransmissionIsIndependent :
    taking.inputs.rst = false ∧ queued.dec.phase ≠ .emit ∧ taking.inputs.sValid = false ∧ State.reset.en = false ∧
    ∃ t, cycle taking.inputs queued = .next t := ⟨rfl, by decide, rfl, rfl, _, cycle_eq _ _⟩

/-- At the reset configuration, for the frame of one byte. -/
theorem test_hyp_FrameRoundTrip :
    let s : State := { on with host := programDrives (encodeFrame ConfigRegs.reset [0x12#8]) }
    State.Inv s ∧ s.en = true ∧ s.dec.phase = .searching ∧ s.dec.lvl = false ∧ s.cfg.gapMin.toNat ≤ s.dec.run.toNat ∧
    slice s.cfg.thresh 0x3F800000#32 = true ∧ slice s.cfg.thresh 0x00000000#32 = false ∧
    1 ≤ s.cfg.shortNom.toNat ∧ s.cfg.shortNom.toNat < s.cfg.gapMin.toNat ∧
    1 ≤ s.cfg.longNom.toNat ∧ s.cfg.longNom.toNat < s.cfg.gapMin.toNat ∧
    (∀ l : Half, ¬ (inWin s.cfg.tol l s.cfg.shortNom = true ∧ inWin s.cfg.tol l s.cfg.longNom = true)) ∧
    1 ≤ [0x12#8].length ∧ [0x12#8].length ≤ s.params.maxBytes ∧ s.queue.length < s.params.outqDepth ∧
    s.host = programDrives (encodeFrame s.cfg [0x12#8]) ++ [] := by
  refine ⟨{ test_inv_on with }, rfl, rfl, rfl, by decide, by decide, by decide, by decide, by decide, by decide, by decide,
    ?_, by decide, by decide, by decide, (List.append_nil _).symm⟩
  intro l h
  simp only [inWin, on, State.reset, State.resetOf, ConfigRegs.reset, Bool.and_eq_true, decide_eq_true_eq,
    BitVec.toNat_ofNat] at h
  omega

end Sys2Proof.Tests
end

section
/-! Proofs about the state (10_state.md): the reset values, the invariant at reset, the configuration while CTRL.EN = 1, and
the frame-buffer bytes that no frame has filled. -/

namespace Sys2Proof.Machine

/-! ## Stale frame-buffer bytes (R26, U1) -/

namespace sameButStaleBytes

variable {s t u v : State}

/-- The second state is the first with another buffer, of the same length and with the same filled bytes. -/
theorem exists_buf (h : sameButStaleBytes s t) : ∃ b : List Byte, t = { s with buf := b } ∧
    b.length = s.buf.length ∧ b.take s.dec.nbytes.toNat = s.buf.take s.dec.nbytes.toNat :=
  ⟨t.buf, h⟩

/-- Two states that take the same side of a branch. -/
theorem ite {c : Prop} [Decidable c] (hpos : sameButStaleBytes s t) (hneg : sameButStaleBytes u v) :
    sameButStaleBytes (if c then s else u) (if c then t else v) := by
  split
  · exact hpos
  · exact hneg

theorem nextDrive_eq (h : sameButStaleBytes s t) : nextDrive t = nextDrive s := by
  obtain ⟨b, rfl, -⟩ := h.exists_buf
  rfl

/-- The packet of a frame has none of the stale bytes (R130). -/
theorem framePacket_eq (h : sameButStaleBytes s t) : framePacket t = framePacket s := by
  obtain ⟨b, rfl, -, htake⟩ := h.exists_buf
  simp [framePacket, frameBytes, htake]

end sameButStaleBytes

/-- An operation that takes states alike but for stale bytes to states alike but for stale bytes. -/
def IgnoresStaleBytes (f : State → State) : Prop :=
  ∀ ⦃s t : State⦄, sameButStaleBytes s t → sameButStaleBytes (f s) (f t)

theorem take_eq_take_of_le {l m : List Byte} {i j : Nat} (h : l.take j = m.take j) (hij : i ≤ j) :
    l.take i = m.take i := by
  simpa [List.take_take, hij] using congrArg (List.take i) h

/-- A byte set at the end of the bytes two buffers share is shared as well. -/
theorem take_succ_set_eq {l m : List Byte} {n : Nat} (h : l.take n = m.take n) (hlen : l.length = m.length) (x : Byte) :
    (l.set n x).take (n + 1) = (m.set n x).take (n + 1) := by
  simp [List.take_add_one, List.getElem?_set, List.take_set_of_le, hlen, h]

namespace IgnoresStaleBytes

/-- An operation that commutes with a change of the buffer and does not add to `nbytes`. -/
theorem of_buf_comm {f : State → State} (hcomm : ∀ s b, f { s with buf := b } = { f s with buf := b })
    (hle : ∀ s, (f s).dec.nbytes.toNat ≤ s.dec.nbytes.toNat) : IgnoresStaleBytes f := by
  intro s t h
  obtain ⟨b, rfl, hlen, htake⟩ := h.exists_buf
  have hbuf : (f s).buf = s.buf := (congrArg State.buf (hcomm s s.buf) :)
  rw [hcomm s b]
  exact ⟨rfl, hlen.trans (congrArg List.length hbuf.symm), hbuf ▸ take_eq_take_of_le htake (hle s)⟩

theorem onlyIf {f : State → State} (hf : IgnoresStaleBytes f) (c : Bool) : IgnoresStaleBytes (onlyIf c f) :=
  fun _ _ h => (hf h).ite h

end IgnoresStaleBytes

/-! ### Shared updates -/

theorem driveOutputs_ignoresStaleBytes : IgnoresStaleBytes driveOutputs :=
  .of_buf_comm (fun _ _ => rfl) fun _ => le_rfl

theorem abort_ignoresStaleBytes (e : Event) : IgnoresStaleBytes (abort e) :=
  .of_buf_comm (fun _ _ => rfl) fun _ => le_rfl

theorem push_ignoresStaleBytes (p : Packet) : IgnoresStaleBytes (push p) :=
  .of_buf_comm (fun _ _ => rfl) fun _ => le_rfl

theorem setPhase_ignoresStaleBytes (ph : Phase) : IgnoresStaleBytes (setPhase ph) :=
  .of_buf_comm (fun _ _ => rfl) fun _ => le_rfl

theorem setLine_ignoresStaleBytes (l : Bool) (r : Half) : IgnoresStaleBytes (setLine l r) :=
  .of_buf_comm (fun _ _ => rfl) fun _ => le_rfl

theorem startFrame_ignoresStaleBytes : IgnoresStaleBytes startFrame :=
  .of_buf_comm (fun _ _ => rfl) fun _ => Nat.zero_le _

theorem countBit_ignoresStaleBytes : IgnoresStaleBytes countBit :=
  .of_buf_comm (fun _ _ => rfl) fun _ => le_rfl

theorem matchBit_ignoresStaleBytes : IgnoresStaleBytes matchBit :=
  .of_buf_comm (fun _ _ => rfl) fun _ => le_rfl

theorem appendBit_ignoresStaleBytes (x : Bool) : IgnoresStaleBytes (appendBit x) :=
  .of_buf_comm (fun _ _ => rfl) fun _ => le_rfl

theorem decoderReset_ignoresStaleBytes : IgnoresStaleBytes decoderReset :=
  .of_buf_comm (fun _ _ => rfl) fun _ => Nat.zero_le _

theorem disable_ignoresStaleBytes : IgnoresStaleBytes disable :=
  .of_buf_comm (fun _ _ => rfl) fun _ => Nat.zero_le _

theorem clearCounters_ignoresStaleBytes : IgnoresStaleBytes clearCounters :=
  .of_buf_comm (fun _ _ => rfl) fun _ => le_rfl

/-- RESET fills the whole buffer, from the parameters alone (R250, log entry 8). -/
theorem resetAll_ignoresStaleBytes : IgnoresStaleBytes resetAll := by
  intro s t h
  obtain ⟨b, rfl, -⟩ := h.exists_buf
  exact ⟨rfl, rfl, rfl⟩

theorem takeDrive_ignoresStaleBytes : IgnoresStaleBytes takeDrive := by
  intro s t h
  obtain ⟨b, rfl, hb⟩ := h.exists_buf
  simp only [takeDrive]
  split
  · refine h.ite ?_
    exact ⟨rfl, hb⟩
  · exact ⟨rfl, hb⟩

/-! ### The output queue -/

theorem emitPacket_ignoresStaleBytes (p : Packet) : IgnoresStaleBytes (emitPacket p) := by
  intro s t h
  obtain ⟨b, rfl, hb⟩ := h.exists_buf
  refine (setPhase_ignoresStaleBytes .searching (push_ignoresStaleBytes p h)).ite ?_
  exact ⟨rfl, hb⟩

theorem emitRetry_ignoresStaleBytes : IgnoresStaleBytes emitRetry := by
  intro s t h
  obtain ⟨b, rfl, hb⟩ := h.exists_buf
  simp only [emitRetry]
  split
  · exact sameButStaleBytes.ite (push_ignoresStaleBytes _ ⟨rfl, hb⟩) h
  · exact h

theorem beatStep_ignoresStaleBytes : IgnoresStaleBytes beatStep := by
  intro s t h
  obtain ⟨b, rfl, hb⟩ := h.exists_buf
  simp only [beatStep]
  split
  · exact h
  · refine sameButStaleBytes.ite ?_ ?_ <;> exact ⟨rfl, hb⟩

/-! ### The Framer and the sample step -/

/-- A completed byte overwrites the first stale byte, which so becomes a filled one (R126). -/
theorem byteDone_ignoresStaleBytes : IgnoresStaleBytes byteDone := by
  intro s t h
  obtain ⟨b, rfl, hlen, htake⟩ := h.exists_buf
  have hle : (s.dec.nbytes + 1#8).toNat ≤ s.dec.nbytes.toNat + 1 := by
    rw [BitVec.toNat_add]
    exact Nat.mod_le _ _
  exact (abort_ignoresStaleBytes .overflow h).ite
    ⟨rfl, by simpa using hlen, take_eq_take_of_le (take_succ_set_eq htake hlen s.dec.cur) hle⟩

theorem pushPayloadBit_ignoresStaleBytes (x : Bool) : IgnoresStaleBytes (pushPayloadBit x) := by
  intro s t h
  obtain ⟨b, rfl, -⟩ := h.exists_buf
  have happ := appendBit_ignoresStaleBytes x h
  exact (byteDone_ignoresStaleBytes happ).ite happ

theorem pushPreambleBit_ignoresStaleBytes (x : Bool) : IgnoresStaleBytes (pushPreambleBit x) := by
  intro s t h
  obtain ⟨b, rfl, -⟩ := h.exists_buf
  have hcount := countBit_ignoresStaleBytes h
  have hmatch := matchBit_ignoresStaleBytes hcount
  exact ((setPhase_ignoresStaleBytes .collecting hmatch).ite hmatch).ite
    (abort_ignoresStaleBytes .preambleMismatch hcount)

theorem pushBit_ignoresStaleBytes (x : Bool) : IgnoresStaleBytes (pushBit x) := by
  intro s t h
  obtain ⟨b, rfl, -⟩ := h.exists_buf
  simp only [pushBit]
  cases s.dec.phase with
  | syncing => exact pushPreambleBit_ignoresStaleBytes x h
  | collecting => exact pushPayloadBit_ignoresStaleBytes x h
  | searching | validating | emit => exact h

theorem lowEnded_ignoresStaleBytes (len : Half) : IgnoresStaleBytes (lowEnded len) := by
  intro s t h
  obtain ⟨b, rfl, -⟩ := h.exists_buf
  simp only [lowEnded]
  cases s.dec.phase with
  | searching => exact (startFrame_ignoresStaleBytes h).ite h
  | syncing | collecting => exact (abort_ignoresStaleBytes .syncLossLow h).ite h
  | validating | emit => exact h

theorem highEnded_ignoresStaleBytes (len : Half) : IgnoresStaleBytes (highEnded len) := by
  intro s t h
  obtain ⟨b, rfl, -⟩ := h.exists_buf
  simp only [highEnded]
  cases s.dec.phase with
  | syncing | collecting => exact (abort_ignoresStaleBytes .syncLossHigh h).ite (pushBit_ignoresStaleBytes _ h)
  | searching | validating | emit => exact h

theorem completeFrame_ignoresStaleBytes : IgnoresStaleBytes completeFrame := by
  intro s t h
  rw [completeFrame, completeFrame, h.framePacket_eq]
  exact emitPacket_ignoresStaleBytes _ (setPhase_ignoresStaleBytes .validating h)

theorem gapReached_ignoresStaleBytes : IgnoresStaleBytes gapReached := by
  intro s t h
  obtain ⟨b, rfl, -⟩ := h.exists_buf
  have habort := abort_ignoresStaleBytes .incompleteGap h
  simp only [gapReached]
  cases s.dec.phase with
  | syncing => exact habort
  | collecting => exact habort.ite (completeFrame_ignoresStaleBytes h)
  | searching | validating | emit => exact h

theorem dropOpenFrame_ignoresStaleBytes : IgnoresStaleBytes dropOpenFrame := by
  intro s t h
  obtain ⟨b, rfl, -⟩ := h.exists_buf
  simp only [dropOpenFrame]
  cases s.dec.phase with
  | syncing | collecting => exact abort_ignoresStaleBytes .incompleteStreamEnd h
  | searching | validating | emit => exact h

theorem streamEnd_ignoresStaleBytes : IgnoresStaleBytes streamEnd := fun _ _ h =>
  setLine_ignoresStaleBytes _ _ (dropOpenFrame_ignoresStaleBytes h)

theorem edgeStep_ignoresStaleBytes : IgnoresStaleBytes edgeStep := by
  intro s t h
  obtain ⟨b, rfl, -⟩ := h.exists_buf
  exact (highEnded_ignoresStaleBytes _ h).ite (lowEnded_ignoresStaleBytes _ h)

theorem sampleStep_ignoresStaleBytes (x : Word) (last : Bool) : IgnoresStaleBytes (sampleStep x last) := by
  intro s t h
  obtain ⟨b, rfl, -⟩ := h.exists_buf
  exact streamEnd_ignoresStaleBytes.onlyIf _ (gapReached_ignoresStaleBytes.onlyIf _
    (setLine_ignoresStaleBytes _ _ (edgeStep_ignoresStaleBytes.onlyIf _ h)))

/-! ### The register bus -/

/-- The operations that write a configuration register follow the template of R181. -/
theorem effect_of_isConfigWrite {i : Instr} (hi : i.isConfigWrite = true) : ∃ upd, effect i = configWrite upd := by
  cases i with
  | wrCfg w => exact ⟨legalCfg w, rfl⟩
  | wrTol w => exact ⟨fun c => { c with tol := w }, rfl⟩
  | wrShortNom w => exact ⟨fun c => { c with shortNom := lowHalf w }, rfl⟩
  | wrLongNom w => exact ⟨fun c => { c with longNom := lowHalf w }, rfl⟩
  | wrGapMin w => exact ⟨fun c => { c with gapMin := legalGapMin w }, rfl⟩
  | wrThresh w => exact ⟨fun c => { c with thresh := w }, rfl⟩
  | wrPreamble w => exact ⟨fun c => { c with preamble := lowHalf w }, rfl⟩
  | _ => cases hi

theorem configWrite_ignoresStaleBytes (upd : ConfigRegs → ConfigRegs) : IgnoresStaleBytes (configWrite upd) := by
  intro s t h
  obtain ⟨b, rfl, hb⟩ := h.exists_buf
  exact sameButStaleBytes.ite ⟨rfl, hb⟩ ⟨rfl, hb⟩

theorem writeEn_ignoresStaleBytes (req : Bool) : IgnoresStaleBytes (writeEn req) := by
  intro s t h
  obtain ⟨b, rfl, hb⟩ := h.exists_buf
  have hcheck : sameButStaleBytes (enableCheck s) (enableCheck { s with buf := b }) :=
    sameButStaleBytes.ite ⟨rfl, hb⟩ ⟨rfl, hb⟩
  exact hcheck.ite ((disable_ignoresStaleBytes h).ite h)

theorem effect_configWrite_ignoresStaleBytes {i : Instr} (hi : i.isConfigWrite = true) :
    IgnoresStaleBytes (effect i) := by
  obtain ⟨upd, hupd⟩ := effect_of_isConfigWrite hi
  exact hupd ▸ configWrite_ignoresStaleBytes upd

theorem effect_wrCtrl_ignoresStaleBytes (w : Word) : IgnoresStaleBytes (effect (.wrCtrl w)) := by
  intro s t h
  have hen := writeEn_ignoresStaleBytes (w.getLsbD 0) h
  have hsoft := (decoderReset_ignoresStaleBytes hen).ite (c := w.getLsbD 1) hen
  exact (clearCounters_ignoresStaleBytes hsoft).ite hsoft

theorem effect_wrStatus_ignoresStaleBytes (w : Word) : IgnoresStaleBytes (effect (.wrStatus w)) := by
  intro s t h
  obtain ⟨b, rfl, hb⟩ := h.exists_buf
  exact sameButStaleBytes.ite (c := w.getLsbD 4) ⟨rfl, hb⟩ h

theorem effect_read_ignoresStaleBytes {i : Instr} (hi : stageOf i = .read) : IgnoresStaleBytes (effect i) := by
  cases i with
  | rdCtrl | rdStatus | rdCfg | rdTol | rdShortNom | rdLongNom | rdGapMin | rdThresh | rdPreamble | rdPktCnt | rdBadCnt
  | rdSynclossCnt | rdDiscardCnt | rdId | rdRsvd => exact .of_buf_comm (fun _ _ => rfl) fun _ => le_rfl
  | _ => cases hi

theorem effect_write_ignoresStaleBytes {i : Instr} (hi : stageOf i = .write) : IgnoresStaleBytes (effect i) := by
  cases i with
  | wrCtrl w => exact effect_wrCtrl_ignoresStaleBytes w
  | wrStatus w => exact effect_wrStatus_ignoresStaleBytes w
  | wrCfg | wrTol | wrShortNom | wrLongNom | wrGapMin | wrThresh | wrPreamble =>
    exact effect_configWrite_ignoresStaleBytes rfl
  | wrRoPktCnt | wrRoBadCnt | wrRoSynclossCnt | wrRoDiscardCnt | wrRoId | wrRsvd => exact fun _ _ h => h
  | _ => cases hi

/-! ### The cycle -/

theorem cycleNext_ignoresStaleBytes (p : Inputs) : IgnoresStaleBytes (cycleNext p) := by
  intro s t h
  obtain ⟨b, rfl, -⟩ := h.exists_buf
  have hout := driveOutputs_ignoresStaleBytes h
  have hread := (effect_read_ignoresStaleBytes (stageOf_busRead p.regAddr p.regWdata)).onlyIf (p.regSel && !p.regWr) hout
  have hbeat := beatStep_ignoresStaleBytes.onlyIf (mValid s && p.mReady) hread
  have hretry := emitRetry_ignoresStaleBytes.onlyIf (s.dec.phase == .emit) hbeat
  have hsample := (sampleStep_ignoresStaleBytes p.sData p.sLast).onlyIf (p.sValid && sReady s) hretry
  exact (resetAll_ignoresStaleBytes hout).ite
    ((effect_write_ignoresStaleBytes (stageOf_busWrite p.regAddr p.regWdata)).onlyIf (p.regSel && p.regWr) hsample)

/-- Settles O58: every operation of a cycle ignores stale bytes, so the step does. -/
theorem staleBufferBytesNeverMatter : Obligations.StaleBufferBytesNeverMatter := by
  intro s t s' t' h hs ht
  rw [step_eq, Host.Outcome.next.injEq] at hs ht
  rw [← hs, ← ht, h.nextDrive_eq]
  exact cycleNext_ignoresStaleBytes _ (takeDrive_ignoresStaleBytes h)

/-! ## The configuration while CTRL.EN = 1 (R30, R63) -/

/-- A configuration write is blocked while EN = 1 (R181). -/
theorem effect_configWrite_cfg {i : Instr} (hi : i.isConfigWrite = true) {s : State} (hen : s.en = true) :
    (effect i s).cfg = s.cfg := by
  obtain ⟨upd, hupd⟩ := effect_of_isConfigWrite hi
  simp [hupd, configWrite, hen]

/-- No register write changes the configuration while EN = 1: those that could are blocked. -/
theorem effect_write_cfg {i : Instr} (hi : stageOf i = .write) {s : State} (hen : s.en = true) :
    (effect i s).cfg = s.cfg := by
  cases i with
  | wrCtrl w =>
    obtain ⟨en, ce, e, d, c, he⟩ := execWrCtrl_eq w s
    simp [effect, exec, he]
  | wrStatus w =>
    simp only [effect, exec, execWrStatus]
    split <;> rfl
  | wrCfg | wrTol | wrShortNom | wrLongNom | wrGapMin | wrThresh | wrPreamble => exact effect_configWrite_cfg rfl hen
  | wrRoPktCnt | wrRoBadCnt | wrRoSynclossCnt | wrRoDiscardCnt | wrRoId | wrRsvd => rfl
  | _ => cases hi

theorem onlyIf_beatStep_en_cfg (c : Bool) (s : State) :
    (onlyIf c beatStep s).en = s.en ∧ (onlyIf c beatStep s).cfg = s.cfg := by
  obtain ⟨q, b, hbeat⟩ := beatStep_eq s
  cases c <;> simp [hbeat]

/-- A cycle without `rst` that starts with EN = 1 ends with the configuration it started with. -/
theorem cycleNext_cfg_of_en {p : Inputs} (hrst : p.rst = false) {s : State} (hen : s.en = true) :
    (cycleNext p s).cfg = s.cfg := by
  obtain ⟨o, hcycle⟩ := cycleNext_of_no_rst hrst s
  obtain ⟨hbeatEn, hbeatCfg⟩ := onlyIf_beatStep_en_cfg (mValid s && p.mReady) { s with out := o }
  have hdec := (onlyIf_sameControl (s.dec.phase == .emit) _ _ (emitRetry_sameControl
      (onlyIf (mValid s && p.mReady) beatStep { s with out := o }))).trans
    (onlyIf_sameControl (p.sValid && sReady s) _ _ (sampleStep_sameControl p.sData p.sLast _))
  rw [hcycle]
  cases p.regSel && p.regWr
  · exact hdec.cfg.trans hbeatCfg
  · rw [onlyIf_true, effect_write_cfg (stageOf_busWrite _ _) (hdec.en.trans (hbeatEn.trans hen))]
    exact hdec.cfg.trans hbeatCfg

/-- Settles O19: the write step finds EN = 1 and leaves the configuration, and no earlier step of the cycle writes it. -/
theorem configurationFixedWhileEnabled : Obligations.ConfigurationFixedWhileEnabled := by
  intro s t hen hrst hstep
  obtain ⟨h, d, htake⟩ := takeDrive_eq s
  rw [step_eq, Host.Outcome.next.injEq, htake] at hstep
  rw [← hstep]
  exact cycleNext_cfg_of_en hrst hen

/-! ## Reset (R47) -/

/-- Settles O14, by evaluating the reset state. -/
theorem resetValues : Obligations.ResetValues := by
  unfold Obligations.ResetValues
  decide

/-- At reset nothing is queued, pending or open, so the invariant asks for legal parameters and legal reset values only. -/
theorem resetOf_inv {p : Params} (hp : p.legal = true) : State.Inv (State.resetOf p) where
  params := hp
  bufLength := List.length_replicate
  nbytes := Nat.zero_le _
  queueLength := Nat.zero_le _
  queueWf := by simp [State.resetOf]
  beat := rfl
  preLen := show ConfigRegs.reset.preLen.toNat ≤ 16 by decide
  gapMin := show ConfigRegs.reset.gapMin ≠ 0#16 by decide
  notValidating := show Decoder.reset.phase ≠ .validating by decide
  run := show Decoder.reset.run ≠ 0#16 by decide
  disabled _ := rfl
  enabled hen := nomatch hen
  syncing hph := nomatch hph
  collecting hph := nomatch hph
  lowInFrame hopen := nomatch hopen
  pendSome := show Decoder.reset.pend ≠ none ↔ Decoder.reset.phase = .emit by decide
  pendWf := by simp [State.resetOf, Decoder.reset]
  emit hph := nomatch hph

/-- Settles O16: the default parameters are legal, so State.reset is a case of the second part. -/
theorem invariantAtReset : Obligations.InvariantAtReset :=
  ⟨resetOf_inv (by decide), fun _ hp => resetOf_inv hp⟩

end Sys2Proof.Machine
end

section
/-! Proofs about reads and the output queue (20_memory.md): a register read has no side effect, and the queue is first in,
first out. -/

namespace Sys2Proof.Machine

/-! ## The output signals are read by nothing (R56, R71) -/

/-- The state with other output signals. -/
def setOut (o : Outputs) (s : State) : State := { s with out := o }

@[simp] theorem setOut_dec (o : Outputs) (s : State) : (setOut o s).dec = s.dec := rfl
@[simp] theorem setOut_cnt (o : Outputs) (s : State) : (setOut o s).cnt = s.cnt := rfl
@[simp] theorem setOut_queue (o : Outputs) (s : State) : (setOut o s).queue = s.queue := rfl

/-- A read only replaces `reg_rdata` among the output signals (R71). -/
theorem readReg_eq_setOut (v : Word) (s : State) : readReg v s = setOut { s.out with regRdata := v } s := rfl

/-- An operation that neither reads nor writes the output signals. -/
def IgnoresOut (f : State → State) : Prop := ∀ o, Function.Commute f (setOut o)

/-- Two branches on one condition, each the same but for the output signals. -/
theorem ite_eq_setOut {c : Prop} [Decidable c] {o : Outputs} {s s' t t' : State} (hpos : s' = setOut o s)
    (hneg : t' = setOut o t) : (if c then s' else t') = setOut o (if c then s else t) := by
  rw [hpos, hneg, apply_ite (setOut o)]

namespace IgnoresOut

variable {f g : State → State}

/-- The operation leaves the output signals as they are. -/
theorem out_eq (hf : IgnoresOut f) (s : State) : (f s).out = s.out := (congrArg State.out (hf s.out s) :)

theorem comp (hf : IgnoresOut f) (hg : IgnoresOut g) : IgnoresOut (f ∘ g) := fun o => (hf o).comp_left (hg o)

theorem onlyIf (hf : IgnoresOut f) (c : Bool) : IgnoresOut (onlyIf c f) := fun o s => ite_eq_setOut (hf o s) rfl

end IgnoresOut

theorem setLine_ignoresOut (l : Bool) (r : Half) : IgnoresOut (setLine l r) := fun _ _ => rfl

theorem emitPacket_ignoresOut (p : Packet) : IgnoresOut (emitPacket p) := fun _ _ => ite_eq_setOut rfl rfl

theorem emitRetry_ignoresOut : IgnoresOut emitRetry := by
  intro o s
  simp only [emitRetry, setOut_dec]
  cases s.dec.pend with
  | some p => exact ite_eq_setOut rfl rfl
  | none => rfl

theorem beatStep_ignoresOut : IgnoresOut beatStep := by
  intro o s
  simp only [beatStep, setOut_queue]
  cases s.queue with
  | nil => rfl
  | cons h rest => exact ite_eq_setOut rfl rfl

theorem byteDone_ignoresOut : IgnoresOut byteDone := fun _ _ => ite_eq_setOut rfl rfl

theorem pushPayloadBit_ignoresOut (b : Bool) : IgnoresOut (pushPayloadBit b) := fun o s =>
  ite_eq_setOut (byteDone_ignoresOut o (appendBit b s)) rfl

theorem pushPreambleBit_ignoresOut (b : Bool) : IgnoresOut (pushPreambleBit b) := fun _ _ =>
  ite_eq_setOut (ite_eq_setOut rfl rfl) rfl

theorem pushBit_ignoresOut (b : Bool) : IgnoresOut (pushBit b) := by
  intro o s
  simp only [pushBit, setOut_dec]
  cases s.dec.phase with
  | syncing => exact pushPreambleBit_ignoresOut b o s
  | collecting => exact pushPayloadBit_ignoresOut b o s
  | searching | validating | emit => rfl

theorem lowEnded_ignoresOut (len : Half) : IgnoresOut (lowEnded len) := by
  intro o s
  simp only [lowEnded, setOut_dec]
  cases s.dec.phase with
  | searching | syncing | collecting => exact ite_eq_setOut rfl rfl
  | validating | emit => rfl

theorem highEnded_ignoresOut (len : Half) : IgnoresOut (highEnded len) := by
  intro o s
  simp only [highEnded, setOut_dec]
  cases s.dec.phase with
  | syncing | collecting => exact ite_eq_setOut rfl (pushBit_ignoresOut _ o s)
  | searching | validating | emit => rfl

theorem gapReached_ignoresOut : IgnoresOut gapReached := by
  intro o s
  simp only [gapReached, setOut_dec]
  cases s.dec.phase with
  | collecting => exact ite_eq_setOut rfl (emitPacket_ignoresOut (framePacket s) o (setPhase .validating s))
  | syncing | searching | validating | emit => rfl

theorem dropOpenFrame_ignoresOut : IgnoresOut dropOpenFrame := by
  intro o s
  simp only [dropOpenFrame, setOut_dec]
  cases s.dec.phase <;> rfl

theorem streamEnd_ignoresOut : IgnoresOut streamEnd := (setLine_ignoresOut _ _).comp dropOpenFrame_ignoresOut

theorem edgeStep_ignoresOut : IgnoresOut edgeStep := fun o s =>
  ite_eq_setOut (highEnded_ignoresOut s.dec.run o s) (lowEnded_ignoresOut s.dec.run o s)

theorem sampleStep_ignoresOut (x : Word) (last : Bool) : IgnoresOut (sampleStep x last) := fun o s =>
  ((streamEnd_ignoresOut.onlyIf _).comp ((gapReached_ignoresOut.onlyIf _).comp
    ((setLine_ignoresOut _ _).comp (edgeStep_ignoresOut.onlyIf _)))) o s

/-! ## The stages of a cycle after the read (R200) -/

/-- Step 2 of a cycle that starts in `s0`: the output step. -/
def outputStage (p : Inputs) (s0 : State) : State → State := onlyIf (mValid s0 && p.mReady) beatStep

/-- Steps 3 and 4 of a cycle that starts in `s0`: the EMIT retry and the sample step. -/
def decoderStages (p : Inputs) (s0 : State) : State → State :=
  onlyIf (p.sValid && sReady s0) (sampleStep p.sData p.sLast) ∘ onlyIf (s0.dec.phase == .emit) emitRetry

/-- Step 5 of a cycle: the register write. -/
def writeStage (p : Inputs) : State → State :=
  onlyIf (p.regSel && p.regWr) (effect (decodeBus (busOp true p.regAddr) p.regWdata))

theorem outputStage_ignoresOut (p : Inputs) (s0 : State) : IgnoresOut (outputStage p s0) :=
  beatStep_ignoresOut.onlyIf _

theorem decoderStages_ignoresOut (p : Inputs) (s0 : State) : IgnoresOut (decoderStages p s0) :=
  ((sampleStep_ignoresOut _ _).onlyIf _).comp (emitRetry_ignoresOut.onlyIf _)

theorem decoderStages_sameControl (p : Inputs) (s0 s : State) : SameControl s (decoderStages p s0 s) :=
  (onlyIf_sameControl _ _ _ (emitRetry_sameControl _)).trans
    (onlyIf_sameControl _ _ _ (sampleStep_sameControl _ _ _))

/-- A cycle without `rst` runs the stages one after another, its read having changed the output signals alone. -/
theorem cycleNext_eq_stages {p : Inputs} (hrst : p.rst = false) (s : State) :
    ∃ o, cycleNext p s = writeStage p (decoderStages p s (outputStage p s (setOut o s))) :=
  cycleNext_of_no_rst hrst s

/-- A cycle that writes no register ends with its sample step. -/
theorem cycleNext_of_no_write {p : Inputs} (hrst : p.rst = false) (hwrite : (p.regSel && p.regWr) = false) (s : State) :
    cycleNext p s = decoderStages p s (outputStage p s
      (onlyIf (p.regSel && !p.regWr) (effect (decodeBus (busOp false p.regAddr) p.regWdata)) (driveOutputs s))) := by
  simp only [cycleNext, hrst, hwrite]
  rfl

/-! ## Register reads (R56) -/

/-- A cycle with a register read ends as without it, but for `reg_rdata`. -/
theorem cycleNext_read {p : Inputs} (hsel : p.regSel = true) (hwr : p.regWr = false) (s : State) :
    ∃ v, cycleNext p s = readReg v (cycleNext { p with regSel := false } s) := by
  by_cases hrst : p.rst = true
  · have hsame : cycleNext { p with regSel := false } s = cycleNext p s := by simp [cycleNext, hrst]
    exact ⟨(cycleNext p s).out.regRdata, by rw [hsame]; rfl⟩
  · have hno : p.rst = false := Bool.eq_false_of_not_eq_true hrst
    obtain ⟨v, hread⟩ := effect_of_read (stageOf_busRead p.regAddr p.regWdata) (driveOutputs s)
    have hstages : IgnoresOut (decoderStages p s ∘ outputStage p s) :=
      (decoderStages_ignoresOut p s).comp (outputStage_ignoresOut p s)
    have hwith : cycleNext p s = (decoderStages p s ∘ outputStage p s) (readReg v (driveOutputs s)) := by
      simp [cycleNext_of_no_write hno, hsel, hwr, hread]
    have hwithout : cycleNext { p with regSel := false } s = (decoderStages p s ∘ outputStage p s) (driveOutputs s) :=
      cycleNext_of_no_write (p := { p with regSel := false }) hno rfl s
    exact ⟨v, by rw [hwith, hwithout, readReg_eq_setOut, readReg_eq_setOut, hstages _ _, hstages.out_eq]⟩

/-- Settles O24: no stage of the cycle reads the output signals, which are all that a read changes. -/
theorem readsHaveNoSideEffect : Obligations.ReadsHaveNoSideEffect := by
  intro s t u p hsel hwr ht hu
  rw [cycle_eq, Host.Outcome.next.injEq] at ht hu
  obtain ⟨v, hread⟩ := cycleNext_read hsel hwr s
  rw [← ht, ← hu, hread]
  rfl

/-! ## Packets that enter the queue (R59, R160) -/

/-- From `s` to `t` the packets `new` have entered the queue at its tail, each counted once in PKT_CNT. -/
structure Enqueues (new : List Packet) (s t : State) : Prop where
  queue : t.queue = s.queue ++ new
  pkt : t.cnt.pkt = s.cnt.pkt + BitVec.ofNat 32 new.length

namespace Enqueues

variable {new new' : List Packet} {s t u : State}

/-- Nothing enters where the queue and PKT_CNT stay. -/
theorem of_eq (hq : t.queue = s.queue) (hc : t.cnt.pkt = s.cnt.pkt) : Enqueues [] s t :=
  ⟨by simp [hq], by simp [hc]⟩

theorem refl (s : State) : Enqueues [] s s := of_eq rfl rfl

theorem trans (h : Enqueues new s t) (k : Enqueues new' t u) : Enqueues (new ++ new') s u where
  queue := by rw [k.queue, h.queue, List.append_assoc]
  pkt := by rw [k.pkt, h.pkt, List.length_append, BitVec.ofNat_add, BitVec.add_assoc]

theorem onlyIf {f : State → State} (h : Enqueues [] s (f s)) (c : Bool) : Enqueues [] s (onlyIf c f s) := by
  cases c
  · exact refl s
  · exact h

end Enqueues

theorem abort_enqueues (e : Event) (s : State) : Enqueues [] s (abort e s) := .of_eq rfl rfl

theorem byteDone_enqueues (s : State) : Enqueues [] s (byteDone s) := by
  unfold byteDone
  split
  · exact abort_enqueues _ s
  · exact .of_eq rfl rfl

theorem pushBit_enqueues (b : Bool) (s : State) : Enqueues [] s (pushBit b s) := by
  unfold pushBit
  cases s.dec.phase with
  | syncing =>
    simp only [pushPreambleBit]
    split
    · split <;> exact .of_eq rfl rfl
    · exact .of_eq rfl rfl
  | collecting =>
    have happend : Enqueues [] s (appendBit b s) := .of_eq rfl rfl
    simp only [pushPayloadBit]
    split
    · exact happend.trans (byteDone_enqueues _)
    · exact happend
  | searching | validating | emit => exact .refl s

theorem lowEnded_enqueues (len : Half) (s : State) : Enqueues [] s (lowEnded len s) := by
  unfold lowEnded
  cases s.dec.phase with
  | searching | syncing | collecting => simp only; split <;> exact .of_eq rfl rfl
  | validating | emit => exact .refl s

theorem highEnded_enqueues (len : Half) (s : State) : Enqueues [] s (highEnded len s) := by
  unfold highEnded
  cases s.dec.phase with
  | syncing | collecting =>
    simp only
    split
    · exact abort_enqueues _ s
    · exact pushBit_enqueues _ s
  | searching | validating | emit => exact .refl s

theorem edgeStep_enqueues (s : State) : Enqueues [] s (edgeStep s) := by
  unfold edgeStep
  split
  · exact highEnded_enqueues _ s
  · exact lowEnded_enqueues _ s

theorem streamEnd_enqueues (s : State) : Enqueues [] s (streamEnd s) := by
  unfold streamEnd dropOpenFrame
  cases s.dec.phase <;> exact .of_eq rfl rfl

/-- From `s` to `t` at most one packet has entered the queue. -/
def EnqueuesAtMostOne (s t : State) : Prop := ∃ new : List Packet, new.length ≤ 1 ∧ Enqueues new s t

namespace EnqueuesAtMostOne

variable {s t u : State}

theorem of_nil (h : Enqueues [] s t) : EnqueuesAtMostOne s t := ⟨[], Nat.zero_le 1, h⟩

/-- A push after a stretch in which nothing enters. -/
theorem of_push (p : Packet) (h : Enqueues [] s t) : EnqueuesAtMostOne s (push p t) :=
  ⟨[p], le_rfl, h.trans (new' := [p]) ⟨rfl, rfl⟩⟩

theorem after (k : EnqueuesAtMostOne t u) (h : Enqueues [] s t) : EnqueuesAtMostOne s u := by
  obtain ⟨new, hlen, hnew⟩ := k
  exact ⟨new, hlen, h.trans hnew⟩

theorem before (h : EnqueuesAtMostOne s t) (k : Enqueues [] t u) : EnqueuesAtMostOne s u := by
  obtain ⟨new, hlen, hnew⟩ := h
  exact ⟨new, hlen, List.append_nil new ▸ hnew.trans k⟩

theorem onlyIf {f : State → State} (h : EnqueuesAtMostOne s (f s)) (c : Bool) : EnqueuesAtMostOne s (onlyIf c f s) := by
  cases c
  · exact of_nil (.refl s)
  · exact h

end EnqueuesAtMostOne

theorem emitPacket_enqueuesAtMostOne (p : Packet) (s : State) : EnqueuesAtMostOne s (emitPacket p s) := by
  unfold emitPacket
  split
  · exact (EnqueuesAtMostOne.of_push p (.refl s)).before (.of_eq rfl rfl)
  · exact .of_nil (.of_eq rfl rfl)

theorem emitRetry_enqueuesAtMostOne (s : State) : EnqueuesAtMostOne s (emitRetry s) := by
  unfold emitRetry
  cases s.dec.pend with
  | some p =>
    simp only
    split
    · exact .of_push p (.of_eq rfl rfl)
    · exact .of_nil (.refl s)
  | none => exact .of_nil (.refl s)

theorem gapReached_enqueuesAtMostOne (s : State) : EnqueuesAtMostOne s (gapReached s) := by
  unfold gapReached
  cases s.dec.phase with
  | syncing => exact .of_nil (abort_enqueues _ s)
  | collecting =>
    simp only
    split
    · exact .of_nil (abort_enqueues _ s)
    · exact (emitPacket_enqueuesAtMostOne _ _).after (.of_eq rfl rfl)
  | searching | validating | emit => exact .of_nil (.refl s)

/-- In the sample step only a gap adds a packet (R108, R129). -/
theorem sampleStep_enqueuesAtMostOne (x : Word) (last : Bool) (s : State) : EnqueuesAtMostOne s (sampleStep x last s) := by
  have hedge (c : Bool) : Enqueues [] s (onlyIf c edgeStep s) := (edgeStep_enqueues s).onlyIf c
  have hline (l : Bool) (r : Half) (t : State) : Enqueues [] t (setLine l r t) := .of_eq rfl rfl
  have hgap (c : Bool) (t : State) : EnqueuesAtMostOne t (onlyIf c gapReached t) :=
    (gapReached_enqueuesAtMostOne t).onlyIf c
  exact ((hgap _ _).after ((hedge _).trans (hline _ _ _))).before ((streamEnd_enqueues _).onlyIf last)

/-- A cycle has an EMIT retry or a sample step, never both (R72): at most one packet enters. -/
theorem decoderStages_enqueuesAtMostOne (p : Inputs) (s0 s : State) : EnqueuesAtMostOne s (decoderStages p s0 s) := by
  simp only [decoderStages, Function.comp_apply]
  cases hsample : p.sValid && sReady s0 with
  | true =>
    have hphase : (s0.dec.phase == .emit) = false := phase_of_sReady (Bool.and_eq_true_iff.mp hsample).2
    rw [hphase]
    exact sampleStep_enqueuesAtMostOne _ _ s
  | false => exact (emitRetry_enqueuesAtMostOne s).onlyIf _

/-! ## The packet that leaves the queue (R166) -/

/-- From `s` to `t` the head has left the queue with its last beat. -/
def PopsHead (s t : State) : Prop :=
  ∃ h rest, s.queue = h :: rest ∧ s.beat.toNat = h.data.length ∧ t.queue = rest ∧ t.beat = 0#8

theorem beatStep_queue (s : State) : (beatStep s).queue = s.queue ∨ PopsHead s (beatStep s) := by
  cases hqueue : s.queue with
  | nil => simp [beatStep, hqueue]
  | cons h rest =>
    by_cases hlast : s.beat.toNat = h.data.length
    · exact .inr ⟨h, rest, hqueue, hlast, by simp [beatStep, hqueue, hlast]⟩
    · simp [beatStep, hqueue, hlast]

/-- The output step keeps the queue or takes the head, with `m_ready` (R73, R166). -/
theorem outputStage_queue (p : Inputs) (s0 s : State) :
    (outputStage p s0 s).queue = s.queue ∨ (p.mReady = true ∧ PopsHead s (outputStage p s0 s)) := by
  unfold outputStage
  cases hbeat : mValid s0 && p.mReady with
  | true => exact (beatStep_queue s).imp_right fun hpop => ⟨(Bool.and_eq_true_iff.mp hbeat).2, hpop⟩
  | false => exact .inl rfl

theorem outputStage_cnt (p : Inputs) (s0 s : State) : (outputStage p s0 s).cnt = s.cnt := by
  obtain ⟨q, b, hbeat⟩ := beatStep_eq s
  unfold outputStage
  cases mValid s0 && p.mReady <;> simp [hbeat]

/-! ## Register writes, the queue and the counters (R229) -/

theorem effect_configWrite_cnt {i : Instr} (hi : i.isConfigWrite = true) (s : State) : (effect i s).cnt = s.cnt := by
  obtain ⟨upd, hupd⟩ := effect_of_isConfigWrite hi
  rcases configWrite_eq upd s with ⟨-, hwrite⟩ | ⟨-, hwrite⟩ <;> rw [hupd, hwrite]

/-- Of the register writes only WR_CTRL touches the counters. -/
theorem effect_write_cnt {i : Instr} (hi : stageOf i = .write) (hctrl : ∀ w, i ≠ .wrCtrl w) (s : State) :
    (effect i s).cnt = s.cnt := by
  cases i with
  | wrCtrl w => exact absurd rfl (hctrl w)
  | wrStatus w =>
    simp only [effect, exec, execWrStatus]
    split <;> rfl
  | wrCfg | wrTol | wrShortNom | wrLongNom | wrGapMin | wrThresh | wrPreamble => exact effect_configWrite_cnt rfl s
  | wrRoPktCnt | wrRoBadCnt | wrRoSynclossCnt | wrRoDiscardCnt | wrRoId | wrRsvd => rfl
  | _ => cases hi

/-- WR_CTRL is the BUS row of address 0x00 alone (R79). -/
theorem decodeBus_ne_wrCtrl {a : Byte} (ha : a ≠ 0x00#8) (w v : Word) : decodeBus (busOp true a) w ≠ .wrCtrl v := by
  have hdec : decodeBus (busOp true a) w = ((busWrites w).lookup a).getD (.wrRsvd a w) := by
    simp [decodeBus, busOp_bit, busOp_addr]
  rw [hdec]
  cases hrow : (busWrites w).lookup a with
  | none => simp
  | some i =>
    rintro rfl
    simpa [busWrites, ha] using mem_of_lookup hrow

theorem writeStage_queue_beat (p : Inputs) (s : State) :
    (writeStage p s).queue = s.queue ∧ (writeStage p s).beat = s.beat := by
  obtain ⟨_, _, _, _, _, _, _, hwrite⟩ := effect_of_write (stageOf_busWrite p.regAddr p.regWdata) s
  unfold writeStage
  cases p.regSel && p.regWr <;> simp [hwrite]

/-- A cycle's register write keeps the counters unless it is a WR_CTRL (R180, R229). -/
theorem writeStage_cnt {p : Inputs} (hctrl : ¬(p.regSel = true ∧ p.regWr = true ∧ p.regAddr = 0x00#8)) (s : State) :
    (writeStage p s).cnt = s.cnt := by
  unfold writeStage
  cases hbus : p.regSel && p.regWr with
  | true =>
    obtain ⟨hsel, hwr⟩ := Bool.and_eq_true_iff.mp hbus
    have haddr : p.regAddr ≠ 0x00#8 := fun haddr => hctrl ⟨hsel, hwr, haddr⟩
    exact effect_write_cnt (stageOf_busWrite _ _) (decodeBus_ne_wrCtrl haddr _) s
  | false => rfl

/-- Settles O49: the output step takes at most the head, the decoder's steps add at most one packet behind the rest, and the
register write touches neither the queue nor, unless it is a WR_CTRL, PKT_CNT. -/
theorem queueIsFirstInFirstOut : Obligations.QueueIsFirstInFirstOut := by
  intro s t p hrst ht
  obtain ⟨o, hstages⟩ := cycleNext_eq_stages hrst s
  rw [cycle_eq, Host.Outcome.next.injEq, hstages] at ht
  have hcnt := outputStage_cnt p s (setOut o s)
  have hout := outputStage_queue p s (setOut o s)
  generalize outputStage p s (setOut o s) = u at ht hcnt hout
  obtain ⟨new, hlen, hnew⟩ := decoderStages_enqueuesAtMostOne p s u
  have hbeat := (decoderStages_sameControl p s u).beat
  obtain ⟨hqueue', hbeat'⟩ := writeStage_queue_beat p (decoderStages p s u)
  subst ht
  refine ⟨new, hlen, ?_, fun hctrl => ?_⟩
  · rw [hqueue', hbeat', hnew.queue, hbeat]
    obtain hkeep | ⟨hready, h, rest, hs, hlast, hrest, hzero⟩ := hout
    · exact .inl (by rw [hkeep, setOut_queue])
    · exact .inr ⟨hready, h, rest, hs, hlast, by rw [hrest], hzero⟩
  · rw [writeStage_cnt hctrl, hnew.pkt, hcnt, setOut_cnt]

end Sys2Proof.Machine
end

section
/-! Proofs about the operation words (30_encoding.md): decoding and encoding, the operations of a cycle, and the signals of
the register bus and the two ports. -/

namespace Sys2Proof

open Machine

/-! ## The BUS words (R74, R79, R80) -/

/-- A BUS word is that of its W bit and its address. -/
theorem busOp_bit_addr (op : BitVec 9) : busOp (op.getLsbD 8) (op.extractLsb' 0 8) = op := by
  refine BitVec.eq_of_getLsbD_eq fun i hi => ?_
  rw [busOp, BitVec.getLsbD_append]
  by_cases h : i < 8
  · simp [h]
  · obtain rfl : i = 8 := by omega
    simp

theorem decodeBus_busOp_read (a : Byte) (w : Word) :
    decodeBus (busOp false a) w = (busReads.lookup a).getD (.rdRsvd a) := by
  simp only [decodeBus, busOp_bit, busOp_addr, Bool.false_eq_true, if_false]

theorem decodeBus_busOp_write (a : Byte) (w : Word) :
    decodeBus (busOp true a) w = ((busWrites w).lookup a).getD (.wrRsvd a w) := by
  simp only [decodeBus, busOp_bit, busOp_addr, if_true]

/-- The rows of `busReads` are the fourteen mapped addresses. -/
theorem busReads_lookup_eq_none_iff (a : Byte) : busReads.lookup a = none ↔ reservedAddr a = true := by
  simp [List.lookup_eq_none_iff, reservedAddr, busReads, ← BitVec.toNat_inj]
  omega

theorem busWrites_lookup_eq_none_iff (w : Word) (a : Byte) : (busWrites w).lookup a = none ↔ reservedAddr a = true := by
  simp [List.lookup_eq_none_iff, reservedAddr, busWrites, ← BitVec.toNat_inj]
  omega

theorem decodeBus_rdRsvd {a : Byte} (ha : reservedAddr a = true) (w : Word) :
    decodeBus (busOp false a) w = .rdRsvd a := by
  rw [decodeBus_busOp_read, (busReads_lookup_eq_none_iff a).mpr ha]
  rfl

theorem decodeBus_wrRsvd {a : Byte} (ha : reservedAddr a = true) (w : Word) :
    decodeBus (busOp true a) w = .wrRsvd a w := by
  rw [decodeBus_busOp_write, (busWrites_lookup_eq_none_iff w a).mpr ha]
  rfl

theorem opWord_of_mem_busReads {a : Byte} {i : Instr} (h : (a, i) ∈ busReads) :
    i.wellFormed = true ∧ i.opWord = .bus (busOp false a) 0#32 := by
  simp only [busReads, List.mem_cons, Prod.mk.injEq, List.not_mem_nil, or_false] at h
  rcases h with h | h | h | h | h | h | h | h | h | h | h | h | h | h <;> rw [h.1, h.2] <;> exact ⟨rfl, rfl⟩

theorem opWord_of_mem_busWrites {w : Word} {a : Byte} {i : Instr} (h : (a, i) ∈ busWrites w) :
    i.wellFormed = true ∧ i.opWord = .bus (busOp true a) w := by
  simp only [busWrites, List.mem_cons, Prod.mk.injEq, List.not_mem_nil, or_false] at h
  rcases h with h | h | h | h | h | h | h | h | h | h | h | h | h | h <;> rw [h.1, h.2] <;> exact ⟨rfl, rfl⟩

theorem decodeBus_read_opWord (a : Byte) (w : Word) :
    (decodeBus (busOp false a) w).wellFormed = true ∧
      (decodeBus (busOp false a) w).opWord = .bus (busOp false a) 0#32 := by
  rw [decodeBus_busOp_read]
  cases hrow : busReads.lookup a with
  | none => exact ⟨(busReads_lookup_eq_none_iff a).mp hrow, rfl⟩
  | some i => exact opWord_of_mem_busReads (mem_of_lookup hrow)

theorem decodeBus_write_opWord (a : Byte) (w : Word) :
    (decodeBus (busOp true a) w).wellFormed = true ∧ (decodeBus (busOp true a) w).opWord = .bus (busOp true a) w := by
  rw [decodeBus_busOp_write]
  cases hrow : (busWrites w).lookup a with
  | none => exact ⟨(busWrites_lookup_eq_none_iff w a).mp hrow, rfl⟩
  | some i => exact opWord_of_mem_busWrites (mem_of_lookup hrow)

/-- Settles O4: a row of the map carries its own address and data, and an address without a row is a reserved one. -/
theorem everyBusWordIsAnOperation : Obligations.EveryBusWordIsAnOperation := by
  intro op w
  rw [← busOp_bit_addr op, busOp_bit]
  cases op.getLsbD 8 with
  | false => exact decodeBus_read_opWord _ w
  | true => exact decodeBus_write_opWord _ w

/-! ## Decoding an encoding (R74, R75, R79) -/

/-- The operations that a word stands for, whatever its format. -/
def OpWord.decoded : OpWord → Except Reject (List Instr)
  | .bus op wdata => .ok [decodeBus op wdata]
  | .port pt sdata => decodePort pt sdata
  | .pin rst => .ok (decodePin rst)

theorem wordOfBytes_bytesOfWord (w : Word) :
    wordOfBytes (w.extractLsb' 0 8) (w.extractLsb' 8 8) (w.extractLsb' 16 8) (w.extractLsb' 24 8) = w := by
  unfold wordOfBytes
  ext i hi
  simp only [BitVec.getElem_append, BitVec.getElem_extractLsb']
  split_ifs <;> rw [← BitVec.getLsbD_eq_getElem] <;> congr 1 <;> omega

theorem setWidth_toNat_lt {n : Nat} (hn : n ≤ 8) (v : BitVec n) : (BitVec.setWidth 8 v).toNat < 2 ^ n := by
  rw [BitVec.toNat_setWidth_of_le hn]
  exact v.isLt

/-- The two bytes of a BUS word, put together again. -/
theorem extractLsb'_bus_bytes (op : BitVec 9) :
    (BitVec.setWidth 8 (op.extractLsb' 8 1) ++ op.extractLsb' 0 8).extractLsb' 0 9 = op := by
  refine BitVec.eq_of_getLsbD_eq fun i hi => ?_
  rw [BitVec.getLsbD_extractLsb', BitVec.getLsbD_append]
  by_cases h : i < 8
  · simp [h, hi]
  · obtain rfl : i = 8 := by omega
    simp

/-- The bytes of a word decode to the operations it stands for, and what follows them is kept (log entry 4). -/
theorem decode_bytes (ow : OpWord) (rest : List Byte) :
    decode ow.format (ow.bytes ++ rest) = ow.decoded.map (·, rest) := by
  cases ow with
  | bus op w =>
    have hfits : (BitVec.setWidth 8 (op.extractLsb' 8 1)).toNat < 2 := setWidth_toNat_lt (n := 1) (by decide) _
    simp only [OpWord.format, OpWord.bytes, bytesOfWord, List.cons_append, List.nil_append, decode, if_pos hfits,
      extractLsb'_bus_bytes, wordOfBytes_bytesOfWord]
    rfl
  | port pt x =>
    have hfits : (BitVec.setWidth 8 pt).toNat < 8 := setWidth_toNat_lt (n := 3) (by decide) _
    simp only [OpWord.format, OpWord.bytes, bytesOfWord, List.cons_append, List.nil_append, decode, if_pos hfits,
      BitVec.extractLsb'_setWidth_of_le (show 0 + 3 ≤ 8 by decide), BitVec.extractLsb'_eq_self,
      wordOfBytes_bytesOfWord]
    rfl
  | pin rst =>
    have hfits : (BitVec.setWidth 8 rst).toNat < 2 := setWidth_toNat_lt (n := 1) (by decide) _
    simp only [OpWord.format, OpWord.bytes, List.cons_append, List.nil_append, decode, if_pos hfits,
      BitVec.extractLsb'_setWidth_of_le (show 0 + 1 ≤ 8 by decide), BitVec.extractLsb'_eq_self]
    rfl

/-- The word of a well-formed operation stands for it alone: only the reserved rows ask for an address of no other row. -/
theorem decoded_opWord {i : Instr} (hi : i.wellFormed = true) : i.opWord.decoded = .ok [i] := by
  cases i with
  | rdRsvd a => simp [Instr.opWord, OpWord.decoded, decodeBus_rdRsvd hi]
  | wrRsvd a w => simp [Instr.opWord, OpWord.decoded, decodeBus_wrRsvd hi]
  | _ => rfl

/-- Settles O3: the bytes decode to what the word stands for, and that is the operation alone. -/
theorem decodeOfEncode : Obligations.DecodeOfEncode := by
  intro i rest hi
  rw [encode, decode_bytes, decoded_opWord hi]
  rfl

/-! ## The operation map (R70, R75, R79) -/

theorem reservedAddr_eq_true_iff (a : Byte) : reservedAddr a = true ↔ 0x38 ≤ a.toNat ∨ a.toNat % 4 ≠ 0 := by
  simp [reservedAddr]

theorem busOp_eq_iff (wr : Bool) (a : Byte) (op : BitVec 9) :
    op = busOp wr a ↔ op.getLsbD 8 = wr ∧ op.extractLsb' 0 8 = a := by
  constructor
  · rintro rfl
    exact ⟨busOp_bit wr a, busOp_addr wr a⟩
  · rintro ⟨rfl, rfl⟩
    exact (busOp_bit_addr op).symm

theorem decodeBus_eq_rdRsvd_iff (op : BitVec 9) (a : Byte) (w : Word) :
    decodeBus op w = .rdRsvd a ↔ op = busOp false a ∧ reservedAddr a = true := by
  constructor
  · intro h
    obtain ⟨hwf, hword⟩ := everyBusWordIsAnOperation op w
    rw [h] at hwf hword
    exact ⟨(OpWord.bus.inj hword).1.symm, hwf⟩
  · rintro ⟨rfl, ha⟩
    exact decodeBus_rdRsvd ha w

theorem decodeBus_eq_wrRsvd_iff (op : BitVec 9) (a : Byte) (w : Word) :
    decodeBus op w = .wrRsvd a w ↔ op = busOp true a ∧ reservedAddr a = true := by
  constructor
  · intro h
    obtain ⟨hwf, hword⟩ := everyBusWordIsAnOperation op w
    rw [h] at hwf hword
    exact ⟨(OpWord.bus.inj hword).1.symm, hwf⟩
  · rintro ⟨rfl, ha⟩
    exact decodeBus_wrRsvd ha w

/-- The operations of a PORT word by its bits (R75). -/
theorem mem_decodePort {pt : BitVec 3} {x : Word} {ops : List Instr} (h : decodePort pt x = .ok ops) (i : Instr) :
    i ∈ ops ↔ (pt.getLsbD 2 = true ∧ i = if pt.getLsbD 1 then .sampleLast x else .sample x) ∨
      (pt.getLsbD 0 = true ∧ i = .beat) := by
  unfold decodePort at h
  split at h
  · cases h
  · cases h
    simp [List.mem_ite_nil_right]

/-- Settles O2: the mapped rows by evaluation, the reserved rows by O4 and the missing row, the PORT word bit by bit. -/
theorem operationMap : Obligations.OperationMap := by
  refine ⟨fun w => by and_intros <;> rfl, fun op a w => ?_, fun pt x ops h => ?_, rfl, rfl⟩
  · rw [decodeBus_eq_rdRsvd_iff, decodeBus_eq_wrRsvd_iff, busOp_eq_iff, busOp_eq_iff, reservedAddr_eq_true_iff, and_assoc,
      and_assoc]
    exact ⟨Iff.rfl, Iff.rfl⟩
  · simp only [mem_decodePort h]
    cases pt.getLsbD 1 <;> simp

/-- Settles O1, by evaluating the decoder on the written words. -/
theorem specWordsDecode : Obligations.SpecWordsDecode := by
  unfold Obligations.SpecWordsDecode
  and_intros <;> rfl

end Sys2Proof
end

section
/-! Proof of the round trip (30_encoding.md R83, 95_test_vectors.md section 1.4). The line's timing and the frame's content are
apart: `Hears` says what a stretch of samples does to the line and the rest of the state, `Collects` what bits do to an open
frame. -/

namespace Sys2Proof.Machine

/-! ## The line, the schedule and the rest of the state -/

/-- The state with other output signals, another schedule, and the line at level `l` for `r` samples. -/
def onLine (o : Outputs) (h : List Drive) (l : Bool) (r : Half) (s : State) : State :=
  { s with out := o, host := h, dec := { s.dec with lvl := l, run := r } }

/-- An operation that neither reads nor writes the output signals, the schedule and the line. -/
def IgnoresLine (f : State → State) : Prop := ∀ o h l r, Function.Commute f (onLine o h l r)

/-- Two branches on one condition, each the same but for the line. -/
theorem ite_eq_onLine {c : Prop} [Decidable c] {o : Outputs} {h : List Drive} {l : Bool} {r : Half} {s s' t t' : State}
    (hpos : s' = onLine o h l r s) (hneg : t' = onLine o h l r t) :
    (if c then s' else t') = onLine o h l r (if c then s else t) := by
  rw [hpos, hneg, apply_ite (onLine o h l r)]

theorem byteDone_ignoresLine : IgnoresLine byteDone := fun _ _ _ _ _ => ite_eq_onLine rfl rfl

theorem pushPayloadBit_ignoresLine (b : Bool) : IgnoresLine (pushPayloadBit b) := fun o h l r s =>
  ite_eq_onLine (byteDone_ignoresLine o h l r (appendBit b s)) rfl

theorem pushPreambleBit_ignoresLine (b : Bool) : IgnoresLine (pushPreambleBit b) := fun _ _ _ _ _ =>
  ite_eq_onLine (ite_eq_onLine rfl rfl) rfl

theorem onLine_phase (o : Outputs) (h : List Drive) (l : Bool) (r : Half) (s : State) :
    (onLine o h l r s).dec.phase = s.dec.phase := rfl

theorem pushBit_ignoresLine (b : Bool) : IgnoresLine (pushBit b) := by
  intro o h l r s
  simp only [pushBit, onLine_phase]
  cases s.dec.phase with
  | syncing => exact pushPreambleBit_ignoresLine b o h l r s
  | collecting => exact pushPayloadBit_ignoresLine b o h l r s
  | searching | validating | emit => rfl

theorem lowEnded_ignoresLine (len : Half) : IgnoresLine (lowEnded len) := by
  intro o h l r s
  simp only [lowEnded, onLine_phase]
  cases s.dec.phase with
  | searching | syncing | collecting => exact ite_eq_onLine rfl rfl
  | validating | emit => rfl

theorem highEnded_ignoresLine (len : Half) : IgnoresLine (highEnded len) := by
  intro o h l r s
  simp only [highEnded, onLine_phase]
  cases s.dec.phase with
  | syncing | collecting => exact ite_eq_onLine rfl (pushBit_ignoresLine _ o h l r s)
  | searching | validating | emit => rfl

theorem gapReached_ignoresLine : IgnoresLine gapReached := by
  intro o h l r s
  simp only [gapReached, onLine_phase]
  cases s.dec.phase with
  | collecting => exact ite_eq_onLine rfl (ite_eq_onLine rfl rfl)
  | syncing | searching | validating | emit => rfl

/-! ## Samples, one a cycle -/

theorem runCycles_add (m n : Nat) (s : State) : runCycles (m + n) s = andThen (runCycles m s) (runCycles n) := by
  induction m generalizing s with
  | zero => rw [Nat.zero_add]; rfl
  | succ m ih => rw [Nat.succ_add, runCycles_succ, runCycles_succ, ih]

theorem programDrives_append (as bs : List Action) : programDrives (as ++ bs) = programDrives as ++ programDrives bs := by
  simp [programDrives]

/-- The cycles of the samples `as`, one each, take the line from level `l` for `r` samples to `l'` for `r'`, and the rest of the
state from `s` to `s'`, whatever stands in the schedule after them. -/
def Hears (as : List Action) (l : Bool) (r : Half) (s : State) (l' : Bool) (r' : Half) (s' : State) : Prop :=
  ∀ o later, ∃ o', runCycles (programDrives as).length (onLine o (programDrives as ++ later) l r s) =
    .next (onLine o' later l' r' s')

namespace Hears

variable {as bs : List Action} {l l' l'' : Bool} {r r' r'' : Half} {s s' s'' : State}

theorem nil (l : Bool) (r : Half) (s : State) : Hears [] l r s l r s := fun o _ => ⟨o, rfl⟩

theorem append (h : Hears as l r s l' r' s') (k : Hears bs l' r' s' l'' r'' s'') :
    Hears (as ++ bs) l r s l'' r'' s'' := by
  intro o later
  obtain ⟨o', hfirst⟩ := h o (programDrives bs ++ later)
  obtain ⟨o'', hsecond⟩ := k o' later
  refine ⟨o'', ?_⟩
  rw [programDrives_append, List.append_assoc, List.length_append, runCycles_add, hfirst, andThen_next, hsecond]

end Hears

/-- A cycle in which only a sample is offered, and the port is ready, is the sample step (R200). -/
theorem cycleNext_smp {s : State} (hs : sReady s = true) (x : Word) :
    cycleNext { Inputs.idle with sValid := true, sData := x } s = sampleStep x false (driveOutputs s) := by
  simp [cycleNext, Inputs.idle, hs, phase_of_sReady hs]

/-- An `SMP` that finds the port ready takes one cycle, its sample step (R72, R82). -/
theorem step_smp (o : Outputs) (later : List Drive) (l : Bool) (r : Half) {s : State} (hs : sReady s = true) (x : Word) :
    ∃ o', step (onLine o (programDrives [.smp x] ++ later) l r s) = .next (sampleStep x false (onLine o' later l r s)) := by
  have hready (h : List Drive) : sReady (onLine o h l r s) = true := hs
  have htake : takeDrive (onLine o (programDrives [.smp x] ++ later) l r s) = onLine o later l r s := by
    show (if _ then _ else _) = _
    rw [if_neg (by simp [staysOffered, hready, Inputs.idle])]
    rfl
  rw [step_eq, htake]
  exact ⟨_, congrArg Host.Outcome.next (cycleNext_smp (hready later) x)⟩

/-- `c` is the configuration in force and the sample port is ready. -/
structure ReadyWith (c : ConfigRegs) (s : State) : Prop where
  cfg : s.cfg = c
  ready : sReady s = true

/-- Under `c` the two sample literals are sliced apart, and every interval of the test encoder is shorter than a gap and has
its own class (95_test_vectors.md section 1.4). -/
structure KeepsBitsApart (c : ConfigRegs) : Prop where
  slice (l : Bool) : slice c.thresh (sampleOf l) = l
  shortPos : 1 ≤ c.shortNom.toNat
  shortLt : c.shortNom.toNat < c.gapMin.toNat
  longPos : 1 ≤ c.longNom.toNat
  longLt : c.longNom.toNat < c.gapMin.toNat
  short : classify c c.shortNom = .short
  long : classify c c.longNom = .long

/-- One sample, from what the sample step makes of the line. -/
theorem Hears.of_sampleStep {c : ConfigRegs} {s s' : State} {x : Word} {l l' : Bool} {r r' : Half} (hs : ReadyWith c s)
    (h : ∀ o later, sampleStep x false (onLine o later l r s) = onLine o later l' r' s') :
    Hears [.smp x] l r s l' r' s' := by
  intro o later
  obtain ⟨o', hstep⟩ := step_smp o later l r hs.ready x
  refine ⟨o', ?_⟩
  show andThen (step _) _ = _
  rw [hstep, h]
  rfl

section

variable {c : ConfigRegs} {s : State} (hc : KeepsBitsApart c) (hs : ReadyWith c s)

include hc hs

theorem hears_rising (r : Half) : Hears [.smp (sampleOf true)] false r s true 1#16 (lowEnded r s) :=
  .of_sampleStep hs fun o later => by
    rw [sampleStep_rising _ _ rfl (hs.cfg ▸ hc.slice true)]
    exact congrArg (setLine true 1#16) (lowEnded_ignoresLine r o later false r s)

theorem hears_falling (r : Half) : Hears [.smp (sampleOf false)] true r s false 1#16 (highEnded r s) := by
  have hgap : s.cfg.gapMin ≠ 1#16 := by
    have hpos := hc.shortPos
    have hlt := hc.shortLt
    rintro h
    rw [← hs.cfg, h] at hlt
    exact absurd hpos (Nat.not_le.mpr (hs.cfg ▸ hlt))
  refine .of_sampleStep hs fun o later => ?_
  rw [sampleStep_falling _ _ rfl (hs.cfg ▸ hc.slice false)]
  show onlyIf (decide (s.cfg.gapMin = 1#16)) _ _ = _
  rw [decide_eq_false hgap]
  exact congrArg (setLine false 1#16) (highEnded_ignoresLine r o later true r s)

/-- A sample without an edge that does not reach the gap only counts (R102). -/
theorem hears_flat {l : Bool} {r : Half} (hgap : ¬(l = false ∧ r.toNat + 1 = c.gapMin.toNat)) :
    Hears [.smp (sampleOf l)] l r s l (sat16 (r.toNat + 1)) s := by
  refine .of_sampleStep hs fun o later => ?_
  rw [sampleStep_flat _ _ (hs.cfg ▸ hc.slice l)]
  show onlyIf (decide (l = false ∧ r.toNat + 1 = s.cfg.gapMin.toNat)) _ _ = _
  rw [hs.cfg, decide_eq_false hgap]
  rfl

/-- The sample that makes a low run a gap (R107). -/
theorem hears_gapReached {r : Half} (hgap : r.toNat + 1 = c.gapMin.toNat) :
    Hears [.smp (sampleOf false)] false r s false (sat16 (r.toNat + 1)) (gapReached s) := by
  refine .of_sampleStep hs fun o later => ?_
  rw [sampleStep_flat _ _ (hs.cfg ▸ hc.slice false)]
  show onlyIf (decide (false = false ∧ r.toNat + 1 = s.cfg.gapMin.toNat)) _ _ = _
  rw [hs.cfg, decide_eq_true ⟨rfl, hgap⟩]
  exact gapReached_ignoresLine o later false (sat16 (r.toNat + 1)) s

/-- A run without an edge in which no gap is reached only counts. -/
theorem hears_run {l : Bool} (n : Nat) {r : Half}
    (hgap : l = true ∨ r.toNat + n < c.gapMin.toNat ∨ c.gapMin.toNat ≤ r.toNat) :
    Hears (encodeRun l n) l r s l (sat16 (r.toNat + n)) s := by
  induction n generalizing r with
  | zero =>
    have hr : sat16 (r.toNat + 0) = r := BitVec.eq_of_toNat_eq (by have := r.isLt; rw [sat16_toNat]; omega)
    rw [hr]
    exact .nil l r s
  | succ n ih =>
    have hnext := sat16_toNat (r.toNat + 1)
    have hle := c.gapMin.isLt
    have hlast : sat16 ((sat16 (r.toNat + 1)).toNat + n) = sat16 (r.toNat + (n + 1)) :=
      BitVec.eq_of_toNat_eq (by simp only [sat16_toNat]; omega)
    have hfirst : Hears [.smp (sampleOf l)] l r s l (sat16 (r.toNat + 1)) s :=
      hears_flat hc hs (by rintro ⟨rfl, h⟩; simp at hgap; omega)
    exact hlast ▸ hfirst.append (ih (hgap.imp_right (by omega)))

omit hs in
/-- An edge and the samples of its level after it make an interval, a low one shorter than a gap. -/
theorem hears_interval {l l' : Bool} {r n : Half} {t : State} (hedge : Hears [.smp (sampleOf l)] l' r s l 1#16 t)
    (ht : ReadyWith c t) (hn : 1 ≤ n.toNat) (hgap : l = true ∨ n.toNat < c.gapMin.toNat) :
    Hears (encodeRun l n.toNat) l' r s l n t := by
  obtain ⟨k, hk⟩ : ∃ k, n.toNat = 1 + k := Nat.exists_eq_add_of_le hn
  have hcount : sat16 ((1#16).toNat + k) = n := by
    refine BitVec.eq_of_toNat_eq ?_
    have := n.isLt
    rw [sat16_toNat, show (1#16).toNat + k = n.toNat from hk.symm]
    omega
  have hrest : Hears (encodeRun l k) l 1#16 t l n t := hcount ▸ hears_run hc ht k (hgap.imp_right fun h => .inl (hk ▸ h))
  rw [hk, encodeRun, List.replicate_add]
  exact hedge.append hrest

/-- A high of `m` samples and a low of `n`: each edge ends an interval, and no gap is reached. -/
theorem hears_pulse {m n r : Half} (hrise : ReadyWith c (lowEnded r s)) (hfall : ReadyWith c (highEnded m (lowEnded r s)))
    (hm : 1 ≤ m.toNat) (hn : 1 ≤ n.toNat) (hgap : n.toNat < c.gapMin.toNat) :
    Hears (encodeRun true m.toNat ++ encodeRun false n.toNat) false r s false n (highEnded m (lowEnded r s)) :=
  (hears_interval hc (hears_rising hc hs r) hrise hm (.inl rfl)).append
    (hears_interval hc (hears_falling hc hrise m) hfall hn (.inr hgap))

/-- `GAP` after a low that is shorter than a gap (R83): the frame is closed, and the run goes on. -/
theorem hears_gap {r : Half} (hclosed : ReadyWith c (gapReached s)) (hlt : r.toNat < c.gapMin.toNat) :
    ∃ r', c.gapMin.toNat ≤ r'.toNat ∧ Hears (encodeGap c) false r s false r' (gapReached s) := by
  obtain ⟨k, hk⟩ : ∃ k, c.gapMin.toNat = r.toNat + 1 + k := Nat.exists_eq_add_of_le hlt
  have hle := c.gapMin.isLt
  have hbefore := hears_run hc hs (l := false) k (r := r) (.inr (.inl (by omega)))
  have hrun : (sat16 (r.toNat + k)).toNat = r.toNat + k := by rw [sat16_toNat]; omega
  generalize sat16 (r.toNat + k) = r1 at hbefore hrun
  have hreach := hears_gapReached hc hs (r := r1) (by omega)
  have hgap : (sat16 (r1.toNat + 1)).toNat = c.gapMin.toNat := by rw [sat16_toNat]; omega
  generalize sat16 (r1.toNat + 1) = r2 at hreach hgap
  have hafter := hears_run hc hclosed (l := false) r.toNat (r := r2) (.inr (.inr hgap.ge))
  refine ⟨sat16 (r2.toNat + r.toNat), by rw [sat16_toNat]; omega, ?_⟩
  rw [encodeGap, show c.gapMin.toNat = k + (1 + r.toNat) by omega, encodeRun, List.replicate_add, List.replicate_add]
  exact hbefore.append (hreach.append hafter)

end

/-! ## Bits (R83, R106, R122, R124) -/

/-- A frame is open under the configuration `c`. -/
structure OpenWith (c : ConfigRegs) (s : State) : Prop where
  en : s.en = true
  cfg : s.cfg = c
  isOpen : s.dec.phase.isOpen = true

theorem OpenWith.readyWith {c : ConfigRegs} {s : State} (h : OpenWith c s) : ReadyWith c s where
  cfg := h.cfg
  ready := by
    have hne : s.dec.phase ≠ .emit := fun hph => by simpa [hph, Phase.isOpen] using h.isOpen
    simp [sReady, h.en, hne]

theorem lowEnded_of_class {s : State} {len : Half} (hopen : s.dec.phase.isOpen = true)
    (hclass : classify s.cfg len ≠ .none) : lowEnded len s = s := by
  unfold lowEnded
  cases hph : s.dec.phase with
  | syncing | collecting => exact if_neg hclass
  | searching | validating | emit => simp [hph, Phase.isOpen] at hopen

theorem highEnded_of_class {s : State} {len : Half} (hopen : s.dec.phase.isOpen = true)
    (hclass : classify s.cfg len ≠ .none) : highEnded len s = pushBit (bitOf s.cfg (classify s.cfg len)) s := by
  unfold highEnded
  cases hph : s.dec.phase with
  | syncing | collecting => exact if_neg hclass
  | searching | validating | emit => simp [hph, Phase.isOpen] at hopen

/-- The class that stands for a bit (R106). -/
theorem bitOf_eq_iff (c : ConfigRegs) (k : IntervalClass) (b : Bool) : bitOf c k = b ↔ (k == .long) = (b ^^ c.bitpol) := by
  unfold bitOf
  cases k == IntervalClass.long <;> cases b <;> cases c.bitpol <;> decide

/-- A low interval of the test encoder's bits. -/
def BitLow (c : ConfigRegs) (r : Half) : Prop := r = c.shortNom ∨ r = c.longNom

/-- The frame is open before, between and after the bits `bs`, which take it from `s` to `t`. -/
inductive Collects (c : ConfigRegs) : List Bool → State → State → Prop where
  | nil {s : State} : OpenWith c s → Collects c [] s s
  | cons {b : Bool} {bs : List Bool} {s t : State} :
      OpenWith c s → Collects c bs (pushBit b s) t → Collects c (b :: bs) s t

namespace Collects

variable {c : ConfigRegs} {b : Bool} {bs cs : List Bool} {s t u : State}

theorem first (h : Collects c bs s t) : OpenWith c s := by
  cases h <;> assumption

theorem last (h : Collects c bs s t) : OpenWith c t := by
  induction h with
  | nil hopen => exact hopen
  | cons _ _ ih => exact ih

theorem append (h : Collects c bs s t) (k : Collects c cs t u) : Collects c (bs ++ cs) s u := by
  induction h with
  | nil _ => exact k
  | cons hopen _ ih => exact .cons hopen (ih k)

/-- One more bit after the others. -/
theorem snoc (h : Collects c bs s t) (hpush : pushBit b t = u) (hu : OpenWith c u) : Collects c (bs ++ [b]) s u := by
  subst hpush
  exact h.append (.cons h.last (.nil hu))

/-- Numbered bits, from the states between them. -/
theorem of_states {f : Nat → Bool} {g : Nat → State} {n : Nat} (hopen : ∀ k, OpenWith c (g k))
    (hpush : ∀ k < n, pushBit (f k) (g k) = g (k + 1)) : Collects c ((List.range n).map f) (g 0) (g n) := by
  induction n with
  | zero => exact .nil (hopen 0)
  | succ n ih =>
    rw [List.range_succ, List.map_append]
    exact (ih fun k hk => hpush k (by omega)).snoc (hpush n (by omega)) (hopen (n + 1))

end Collects

section

variable {c : ConfigRegs} (hc : KeepsBitsApart c)

include hc

namespace BitLow

variable {r : Half}

theorem lt (hr : BitLow c r) : r.toNat < c.gapMin.toNat := by
  obtain rfl | rfl := hr
  · exact hc.shortLt
  · exact hc.longLt

theorem classify_ne (hr : BitLow c r) : classify c r ≠ .none := by
  obtain rfl | rfl := hr
  · simp [hc.short]
  · simp [hc.long]

end BitLow

/-- `BIT b` (R83) pushes the bit `b` into a frame that is open or that its rising edge opens. -/
theorem hears_bit {b : Bool} {s t : State} {r : Half} (hs : ReadyWith c s) (ht : OpenWith c t) (hlow : lowEnded r s = t)
    (hpush : OpenWith c (pushBit b t)) :
    ∃ r', BitLow c r' ∧ Hears (encodeBit c b) false r s false r' (pushBit b t) := by
  subst hlow
  have hhigh (len : Half) (hlen : bitOf c (classify c len) = b) (hne : classify c len ≠ .none) :
      highEnded len (lowEnded r s) = pushBit b (lowEnded r s) := by
    rw [highEnded_of_class ht.isOpen (ht.cfg.symm ▸ hne), ht.cfg, hlen]
  unfold encodeBit
  cases hb : b ^^ c.bitpol with
  | true =>
    have hlong := hhigh c.longNom (by rw [bitOf_eq_iff, hb, hc.long]; rfl) (by simp [hc.long])
    exact ⟨_, .inl rfl, hlong ▸ hears_pulse hc hs ht.readyWith (hlong ▸ hpush.readyWith) hc.longPos hc.shortPos hc.shortLt⟩
  | false =>
    have hshort := hhigh c.shortNom (by rw [bitOf_eq_iff, hb, hc.short]; rfl) (by simp [hc.short])
    exact ⟨_, .inr rfl, hshort ▸ hears_pulse hc hs ht.readyWith (hshort ▸ hpush.readyWith) hc.shortPos hc.longPos hc.longLt⟩

/-- Bits after the first one of a frame. -/
theorem hears_bits {bs : List Bool} {s t : State} (h : Collects c bs s t) {r : Half} (hr : BitLow c r) :
    ∃ r', BitLow c r' ∧ Hears (encodeBits c bs) false r s false r' t := by
  induction h generalizing r with
  | nil _ => exact ⟨r, hr, .nil false r _⟩
  | cons hopen hrest ih =>
    have hlow := lowEnded_of_class hopen.isOpen (hopen.cfg.symm ▸ hr.classify_ne hc)
    obtain ⟨r1, hr1, hbit⟩ := hears_bit hc hopen.readyWith hopen hlow hrest.first
    obtain ⟨r2, hr2, hbits⟩ := ih hr1
    exact ⟨r2, hr2, hbit.append hbits⟩

/-- The bits of a frame, from a gap in SEARCHING (R121, R122). -/
theorem hears_frame_bits {bs : List Bool} {s t : State} (hs : ReadyWith c s) (hphase : s.dec.phase = .searching) {r : Half}
    (hr : c.gapMin.toNat ≤ r.toNat) (hne : bs ≠ []) (h : Collects c bs (startFrame s) t) :
    ∃ r', BitLow c r' ∧ Hears (encodeBits c bs) false r s false r' t := by
  have hlow : lowEnded r s = startFrame s := by simp [lowEnded, hphase, hs.cfg, hr]
  cases h with
  | nil _ => exact absurd rfl hne
  | cons hopen hrest =>
    obtain ⟨r1, hr1, hbit⟩ := hears_bit hc hs hopen hlow hrest.first
    obtain ⟨r2, hr2, hbits⟩ := hears_bits hc hrest hr1
    exact ⟨r2, hr2, hbit.append hbits⟩

end

/-! ## The bytes of a frame (R121, R125 to R127) -/

/-- The bits of a byte in the order they are sent (R83). -/
def byteBits (x : Byte) : List Bool :=
  [x.getLsbD 7, x.getLsbD 6, x.getLsbD 5, x.getLsbD 4, x.getLsbD 3, x.getLsbD 2, x.getLsbD 1, x.getLsbD 0]

/-- Preamble bit `k` in the order the bits are sent (R83). -/
def preambleSent (c : ConfigRegs) (k : Nat) : Bool := c.preamble.getLsbD (c.preLen.toNat - 1 - k)

/-- The bits of a frame: the preamble, then the bytes (R83). -/
def frameBits (c : ConfigRegs) (d : List Byte) : List Bool :=
  (List.range c.preLen.toNat).map (preambleSent c) ++ d.flatMap byteBits

theorem frameBits_ne_nil (c : ConfigRegs) {d : List Byte} (hpos : 1 ≤ d.length) : frameBits c d ≠ [] := by
  obtain ⟨x, e, rfl⟩ := List.exists_cons_of_length_pos hpos
  simp [frameBits, byteBits]

/-- The frame that starts in `s`, after `k` matching preamble bits (R127). -/
def synced (s : State) (k : Nat) : State :=
  { s with
    dec := { s.dec with
      preCnt := BitVec.ofNat 5 k, bitTotal := BitVec.ofNat 16 k, cur := 0#8, nbits := 0#4, nbytes := 0#8
      phase := if k < s.cfg.preLen.toNat then .syncing else .collecting } }

/-- The frame that starts in `s`, after its preamble and the bytes `d` (R125, R126). -/
def filled (s : State) (d : List Byte) : State :=
  { s with
    buf := d ++ s.buf.drop d.length
    dec := { s.dec with
      preCnt := s.cfg.preLen, bitTotal := BitVec.ofNat 16 (s.cfg.preLen.toNat + 8 * d.length), cur := 0#8, nbits := 0#4,
      nbytes := BitVec.ofNat 8 d.length, phase := .collecting } }

theorem synced_eq_filled (s : State) : synced s s.cfg.preLen.toNat = filled s [] := by
  simp [synced, filled]

theorem synced_open {s : State} (hen : s.en = true) (k : Nat) : OpenWith s.cfg (synced s k) where
  en := hen
  cfg := rfl
  isOpen := by
    simp only [synced]
    split <;> rfl

theorem filled_open {s : State} (hen : s.en = true) (d : List Byte) : OpenWith s.cfg (filled s d) := ⟨hen, rfl, rfl⟩

theorem pushBit_synced (s : State) {k : Nat} (hk : k < s.cfg.preLen.toNat) :
    pushBit (preambleSent s.cfg k) (synced s k) = synced s (k + 1) := by
  have hlt := s.cfg.preLen.isLt
  have hbit : preambleBit s.cfg (BitVec.ofNat 5 k) = preambleSent s.cfg k := by
    rw [preambleSent, preambleBit, BitVec.toNat_ofNat, Nat.mod_eq_of_lt (by omega)]
  have hcnt : BitVec.ofNat 5 k + 1#5 = s.cfg.preLen ↔ ¬ k + 1 < s.cfg.preLen.toNat := by
    rw [← BitVec.ofNat_add, ← BitVec.toNat_inj, BitVec.toNat_ofNat, Nat.mod_eq_of_lt (by omega)]
    omega
  have hpush : pushBit (preambleSent s.cfg k) (synced s k) = pushPreambleBit (preambleSent s.cfg k) (synced s k) := by
    simp [pushBit, synced, hk]
  rw [hpush, pushPreambleBit]
  by_cases hmore : k + 1 < s.cfg.preLen.toNat <;>
    simp [synced, hk, hbit, hcnt, hmore, countBit, matchBit, setPhase, BitVec.ofNat_add]

theorem collects_preamble {s : State} (hen : s.en = true) :
    Collects s.cfg ((List.range s.cfg.preLen.toNat).map (preambleSent s.cfg)) (startFrame s) (filled s []) :=
  synced_eq_filled s ▸ .of_states (synced_open hen) fun _ hk => pushBit_synced s hk

/-- The frame after its preamble, the bytes `d` and the first `j` bits of the byte `x` (R125). -/
def assembling (s : State) (d : List Byte) (x : Byte) (j : Nat) : State :=
  { filled s d with
    dec := { (filled s d).dec with
      bitTotal := BitVec.ofNat 16 (s.cfg.preLen.toNat + 8 * d.length + j), cur := x >>> (8 - j), nbits := BitVec.ofNat 4 j } }

theorem filled_eq_assembling (s : State) (d : List Byte) (x : Byte) : filled s d = assembling s d x 0 := by
  have hcur : x >>> 8 = 0#8 := BitVec.ushiftRight_eq_zero (by decide)
  simp [assembling, filled, hcur]

/-- The next bit of a byte goes in below those before it (R125). -/
theorem shiftLeft_or_next_bit (x : Byte) {j : Nat} (hj : j ≤ 7) :
    (x >>> (8 - j)) <<< 1 ||| BitVec.setWidth 8 (BitVec.ofBool (x.getLsbD (7 - j))) = x >>> (8 - (j + 1)) := by
  refine BitVec.eq_of_getLsbD_eq fun i hi => ?_
  cases i with
  | zero => simp [show 8 - (j + 1) = 7 - j by omega]
  | succ i => simp [hi, show 8 - j + i = 8 - (j + 1) + (i + 1) by omega]

theorem appendBit_assembling (s : State) (d : List Byte) (x : Byte) {j : Nat} (hj : j ≤ 7) :
    appendBit (x.getLsbD (7 - j)) (assembling s d x j) = assembling s d x (j + 1) := by
  simp only [appendBit, assembling, shiftLeft_or_next_bit x hj, ← BitVec.ofNat_add, Nat.add_assoc]

theorem pushBit_assembling (s : State) (d : List Byte) (x : Byte) {j : Nat} (hj : j < 7) :
    pushBit (x.getLsbD (7 - j)) (assembling s d x j) = assembling s d x (j + 1) := by
  have hbits : BitVec.ofNat 4 j + 1#4 ≠ 8#4 := by
    rw [← BitVec.ofNat_add, ne_eq, ← BitVec.toNat_inj]
    simp
    omega
  show (if BitVec.ofNat 4 j + 1#4 = 8#4 then _ else _) = _
  rw [if_neg hbits, appendBit_assembling s d x hj.le]

theorem set_append_drop {d b : List Byte} (x : Byte) (h : d.length < b.length) :
    (d ++ b.drop d.length).set d.length x = d ++ x :: b.drop (d.length + 1) := by
  rw [List.drop_eq_getElem_cons h, List.set_append_right _ _ le_rfl, Nat.sub_self, List.set_cons_zero]

theorem pushBit_assembling_last {s : State} {d : List Byte} (x : Byte) (hroom : d.length < s.params.maxBytes)
    (hmax : s.params.maxBytes ≤ 255) (hbuf : s.buf.length = s.params.maxBytes) :
    pushBit (x.getLsbD 0) (assembling s d x 7) = filled s (d ++ [x]) := by
  have hbytes : (BitVec.ofNat 8 d.length).toNat = d.length := by
    rw [BitVec.toNat_ofNat, Nat.mod_eq_of_lt (by omega)]
  show byteDone (appendBit (x.getLsbD (7 - 7)) (assembling s d x 7)) = _
  rw [appendBit_assembling s d x le_rfl, byteDone_of_room]
  · simp [assembling, filled, hbytes, set_append_drop x (hbuf ▸ hroom), BitVec.ofNat_add, Nat.mul_add, Nat.add_assoc]
  · exact hbytes.symm ▸ hroom.ne

theorem assembling_open {s : State} (hen : s.en = true) (d : List Byte) (x : Byte) (j : Nat) :
    OpenWith s.cfg (assembling s d x j) := ⟨hen, rfl, rfl⟩

theorem collects_byte {s : State} (hen : s.en = true) {d : List Byte} (x : Byte) (hroom : d.length < s.params.maxBytes)
    (hmax : s.params.maxBytes ≤ 255) (hbuf : s.buf.length = s.params.maxBytes) :
    Collects s.cfg (byteBits x) (filled s d) (filled s (d ++ [x])) := by
  have hlast := pushBit_assembling_last x hroom hmax hbuf
  rw [filled_eq_assembling s d x]
  have hseven : Collects s.cfg ((List.range 7).map fun j => x.getLsbD (7 - j)) (assembling s d x 0) (assembling s d x 7) :=
    .of_states (assembling_open hen d x) fun _ hj => pushBit_assembling s d x hj
  exact hseven.snoc hlast (filled_open hen (d ++ [x]))

theorem collects_bytes {s : State} (hen : s.en = true) {d e : List Byte} (hroom : (d ++ e).length ≤ s.params.maxBytes)
    (hmax : s.params.maxBytes ≤ 255) (hbuf : s.buf.length = s.params.maxBytes) :
    Collects s.cfg (e.flatMap byteBits) (filled s d) (filled s (d ++ e)) := by
  induction e generalizing d with
  | nil => simpa using Collects.nil (filled_open hen d)
  | cons x e ih =>
    have hbyte := collects_byte hen (d := d) x (by simp at hroom; omega) hmax hbuf
    have hrest := ih (d := d ++ [x]) (by simpa using hroom)
    simpa using hbyte.append hrest

/-! ## The waveform (R83) -/

theorem encodeBits_append (c : ConfigRegs) (bs cs : List Bool) :
    encodeBits c (bs ++ cs) = encodeBits c bs ++ encodeBits c cs := by
  simp [encodeBits]

theorem encodeByte_eq_encodeBits (c : ConfigRegs) (x : Byte) : encodeByte c x = encodeBits c (byteBits x) := by
  simp [encodeByte, encodeNibble, byteBits, ← encodeBits_append]

theorem encodeBytes_eq_encodeBits (c : ConfigRegs) (d : List Byte) :
    (d.map (encodeByte c)).flatten = encodeBits c (d.flatMap byteBits) := by
  induction d with
  | nil => rfl
  | cons x d ih => rw [List.map_cons, List.flatten_cons, ih, encodeByte_eq_encodeBits, List.flatMap_cons, encodeBits_append]

theorem encodeFrame_eq (c : ConfigRegs) (d : List Byte) :
    encodeFrame c d = encodeBits c (frameBits c d) ++ encodeGap c := by
  rw [encodeFrame, frameBits, encodeBits_append, encodeBytes_eq_encodeBits]
  rfl

/-! ## The round trip -/

/-- An interval of exactly its nominal length is in its window (R104). -/
theorem inWin_self {tol : Word} (n : Half) : inWin tol n n = true := by
  have hprod : (0 : Int) ≤ n.toNat * tol.toNat := mul_nonneg (Int.natCast_nonneg _) (Int.natCast_nonneg _)
  simp only [inWin, Bool.and_eq_true, decide_eq_true_eq, mul_sub, mul_add]
  omega

/-- The configurations of the round trip: an interval is in its own window, and the windows do not overlap (R105). -/
theorem keepsBitsApart_of_windows {c : ConfigRegs} (hhigh : slice c.thresh (sampleOf true) = true)
    (hlow : slice c.thresh (sampleOf false) = false) (hs : 1 ≤ c.shortNom.toNat) (hs' : c.shortNom.toNat < c.gapMin.toNat)
    (hl : 1 ≤ c.longNom.toNat) (hl' : c.longNom.toNat < c.gapMin.toNat)
    (hapart : ∀ l : Half, ¬ (inWin c.tol l c.shortNom = true ∧ inWin c.tol l c.longNom = true)) : KeepsBitsApart c where
  slice l := by cases l <;> assumption
  shortPos := hs
  shortLt := hs'
  longPos := hl
  longLt := hl'
  short := by simp [classify, inWin_self]
  long := by
    have hout : inWin c.tol c.longNom c.shortNom = false := by
      simpa [inWin_self] using hapart c.longNom
    simp [classify, inWin_self, hout]

/-- The packet of the bytes `d` under the configuration of `s` (R130, R131). -/
def packetOf (s : State) (d : List Byte) : Packet :=
  { data := d, bitCount := BitVec.ofNat 16 (s.cfg.preLen.toNat + 8 * d.length), validCheck := validCheck s.cfg.checkMode d }

theorem gapReached_filled {s : State} {d : List Byte} (hpos : 1 ≤ d.length) (hlen : d.length ≤ 255)
    (hroom : s.queue.length < s.params.outqDepth) :
    gapReached (filled s d) = setPhase .searching (push (packetOf s d) (filled s d)) := by
  have hbytes : (BitVec.ofNat 8 d.length).toNat = d.length := by
    rw [BitVec.toNat_ofNat, Nat.mod_eq_of_lt (by omega)]
  have hsome : BitVec.ofNat 8 d.length ≠ 0#8 := by
    rw [ne_eq, ← BitVec.toNat_inj, hbytes]
    exact Nat.ne_of_gt hpos
  have hpacket : framePacket (filled s d) = packetOf s d := by
    simp [framePacket, frameBytes, packetOf, filled, hbytes]
  have hclose : gapReached (filled s d) = completeFrame (filled s d) := by
    simp [gapReached, filled, hsome]
  have hfree : outqRoom (setPhase .validating (filled s d)) = true := decide_eq_true hroom
  rw [hclose, completeFrame, emitPacket, if_pos hfree, hpacket]
  rfl

theorem collects_frame {s : State} (hen : s.en = true) {d : List Byte} (hlen : d.length ≤ s.params.maxBytes)
    (hmax : s.params.maxBytes ≤ 255) (hbuf : s.buf.length = s.params.maxBytes) :
    Collects s.cfg (frameBits s.cfg d) (startFrame s) (filled s d) :=
  (collects_preamble hen).append (collects_bytes hen (d := []) hlen hmax hbuf)

theorem State.Inv.maxBytes_le {s : State} (h : State.Inv s) : s.params.maxBytes ≤ 255 := by
  have hlegal := h.params
  simp only [Params.legal, Bool.and_eq_true, decide_eq_true_eq] at hlegal
  omega

/-- The samples of a `FRAME` (R83), from a gap in SEARCHING with room in the queue, end in the push of its packet and in a gap
again. -/
theorem hears_frame {s : State} {d : List Byte} (hc : KeepsBitsApart s.cfg) (hinv : State.Inv s) (hen : s.en = true)
    (hphase : s.dec.phase = .searching) {r : Half} (hgap : s.cfg.gapMin.toNat ≤ r.toNat) (hpos : 1 ≤ d.length)
    (hlen : d.length ≤ s.params.maxBytes) (hroom : s.queue.length < s.params.outqDepth) :
    ∃ r', s.cfg.gapMin.toNat ≤ r'.toNat ∧
      Hears (encodeFrame s.cfg d) false r s false r' (setPhase .searching (push (packetOf s d) (filled s d))) := by
  have hmax := hinv.maxBytes_le
  have hready : ReadyWith s.cfg s := ⟨rfl, by simp [sReady, hen, hphase]⟩
  have hclose := gapReached_filled hpos (hlen.trans hmax) hroom
  have hclosed : ReadyWith s.cfg (gapReached (filled s d)) := hclose ▸ ⟨rfl, by simp [sReady, setPhase, push, filled, hen]⟩
  have hframe := collects_frame hen hlen hmax hinv.bufLength
  obtain ⟨r1, hr1, hbits⟩ := hears_frame_bits hc hready hphase hgap (frameBits_ne_nil s.cfg hpos) hframe
  obtain ⟨r2, hr2, hend⟩ := hears_gap hc (filled_open hen d).readyWith hclosed (hr1.lt hc)
  exact ⟨r2, hr2, encodeFrame_eq s.cfg d ▸ hclose ▸ hbits.append hend⟩

/-- Settles O60: the samples push the frame's bits one by one, the bits fill the buffer, and the closing gap pushes the
packet. -/
theorem frameRoundTrip : Obligations.FrameRoundTrip := by
  intro s d later hinv hen hphase hlvl hgap hhigh hlow hs hs' hl hl' hapart hpos hlen hroom hhost
  obtain ⟨r, hr, hears⟩ :=
    hears_frame (keepsBitsApart_of_windows hhigh hlow hs hs' hl hl' hapart) hinv hen hphase hgap hpos hlen hroom
  obtain ⟨o, hrun⟩ := hears s.out later
  have hline : onLine s.out s.host false s.dec.run s = s := hlvl ▸ rfl
  rw [← hhost, hline] at hrun
  have hcount : (packetOf s d).bitCount.toNat = s.cfg.preLen.toNat + 8 * d.length := by
    have hpre := hinv.preLen
    have hmax := hinv.maxBytes_le
    rw [packetOf, BitVec.toNat_ofNat, Nat.mod_eq_of_lt (by omega)]
  exact ⟨_, packetOf s d, hrun, rfl, hcount, rfl, rfl, rfl, rfl, rfl, hen, rfl, rfl, rfl, hr⟩

end Sys2Proof.Machine
end

section
/-! Proofs about the signals of a cycle (30_encoding.md sections 1, 2, 5): the register bus, the sample port, the output port, the
PORT word, and the input signals that perform an operation. -/

namespace Sys2Proof.Machine

/-- Settles O9: the step is a function on states. -/
theorem stepAlwaysCompletes : Obligations.StepAlwaysCompletes := fun s => ⟨_, step_eq s⟩

/-! ## The register bus (R71) -/

@[simp] theorem stateOutputs_sReady (s : State) : (stateOutputs s).sReady = sReady s := by
  unfold stateOutputs
  split <;> rfl

@[simp] theorem stateOutputs_regRdata (s : State) : (stateOutputs s).regRdata = 0#32 := by
  unfold stateOutputs
  split <;> rfl

/-- The output signals of a read cycle: those of the state at its start, with the register's value there (R71). -/
theorem cycleNext_out_of_read {p : Inputs} (hrst : p.rst = false) (hsel : p.regSel = true) (hwr : p.regWr = false)
    (s : State) : (cycleNext p s).out =
      { stateOutputs s with regRdata := (effect (decodeBus (busOp false p.regAddr) p.regWdata) s).out.regRdata } := by
  rw [cycleNext_out, if_pos ⟨hrst, hsel, hwr⟩, effect_read_driveOutputs (stageOf_busRead p.regAddr p.regWdata)]
  rfl

theorem cycleNext_out_of_no_read {p : Inputs} (h : p.regSel = false ∨ p.regWr = true) (s : State) :
    (cycleNext p s).out = stateOutputs s := by
  rw [cycleNext_out, if_neg]
  rintro ⟨-, hsel, hwr⟩
  simp [hsel, hwr] at h

/-- Settles O10: a read cycle has the register's value, any other cycle 0, and `reg_sel` guards every use of the bus fields. -/
theorem registerBusReadData : Obligations.RegisterBusReadData := by
  refine ⟨fun s t u p ht hrst hsel hwr hu => ?_, fun s t p ht hno => ?_, fun s p wr a w hsel => ?_⟩
  · rw [cycle_eq, Host.Outcome.next.injEq] at ht
    rw [exec_eq_effect, Host.Outcome.next.injEq] at hu
    rw [← ht, ← hu, cycleNext_out_of_read hrst hsel hwr]
  · rw [cycle_eq, Host.Outcome.next.injEq] at ht
    rw [← ht, cycleNext_out_of_no_read hno, stateOutputs_regRdata]
  · simp [cycle_eq, cycleNext, hsel]

/-! ## The operations of a cycle (R72, R73, R75) -/

theorem sReady_iff (s : State) : sReady s = true ↔ s.en = true ∧ s.dec.phase ≠ .emit := by
  simp [sReady]

theorem mValid_iff (s : State) : mValid s = true ↔ s.queue ≠ [] := by
  simp [mValid]

/-- The register bus stands for reads and writes only. -/
theorem stageOf_of_mem_busOps {p : Inputs} {i : Instr} (h : i ∈ busOps p) : stageOf i = .read ∨ stageOf i = .write := by
  obtain ⟨-, rfl⟩ := List.mem_ite_nil_right.mp h |>.imp_right List.mem_singleton.mp
  rw [stageOf_decodeBus]
  split
  · exact .inr rfl
  · exact .inl rfl

/-- The port operations of a cycle (R72, R73, R75). -/
theorem mem_cycleOps_of_port {s : State} {p : Inputs} {ops : List Instr} (hops : cycleOps s p = .ok ops) {i : Instr}
    (hi : stageOf i = .sample ∨ stageOf i = .output) :
    i ∈ ops ↔ p.rst = false ∧
      ((p.sValid = true ∧ sReady s = true ∧ i = if p.sLast then .sampleLast p.sData else .sample p.sData) ∨
        (mValid s = true ∧ p.mReady = true ∧ i = .beat)) := by
  cases hrst : p.rst with
  | true =>
    rw [cycleOps_rst hrst] at hops
    cases hops
    simp
    rintro rfl
    simp [stageOf] at hi
  | false =>
    rw [cycleOps_eq hrst] at hops
    cases hops
    have hbus : i ∉ busOps p := fun hmem => by
      rcases stageOf_of_mem_busOps hmem with h | h <;> simp [h] at hi
    simp [hbus, List.mem_ite_nil_right, and_assoc]

theorem offerSample_of_not_ready {s : State} (hs : sReady s = false) (x : Word) (last : Bool) : offerSample x last s = s := by
  simp [offerSample, hs]

/-- Settles O11: the sample operations of a cycle are those of an accepted sample, and `s_valid` guards every use of the
sample. -/
theorem samplePortHandshake : Obligations.SamplePortHandshake := by
  refine ⟨fun s => ?_, fun s p ops hops => ?_, fun s x hs => ?_, fun s x hs => ?_, fun s p x l hv => ?_⟩
  · rw [← sReady_iff]
    simp [driveOutputs]
  · rw [mem_cycleOps_of_port hops (i := .sample p.sData) (.inl rfl),
      mem_cycleOps_of_port hops (i := .sampleLast p.sData) (.inl rfl), sReady_iff]
    cases p.sLast <;> simp <;> tauto
  · rw [exec_eq_effect, exec_eq_effect, (effect_sample_ready hs x).1, (effect_sample_ready hs x).2]
    exact ⟨rfl, rfl⟩
  · exact ⟨congrArg Host.Outcome.next (offerSample_of_not_ready hs x false),
      congrArg Host.Outcome.next (offerSample_of_not_ready hs x true)⟩
  · simp [cycle_eq, cycleNext, hv]

/-! ## The output port (R73, R76, R77) -/

/-- The signals of an empty queue (R73). -/
theorem stateOutputs_of_empty {s : State} (hq : s.queue = []) :
    stateOutputs s = { Outputs.zero with sReady := sReady s } := by
  simp [stateOutputs, hq]

/-- The signals of a head packet (R73). -/
theorem stateOutputs_of_head {s : State} {p : Packet} {rest : List Packet} (hq : s.queue = p :: rest) :
    stateOutputs s =
      { sReady := sReady s, mValid := true, mData := beatWord p s.beat.toNat, mHdr := s.beat == 0#8,
        mLast := s.beat.toNat == p.data.length, regRdata := 0#32 } := by
  simp [stateOutputs, hq]

/-- In every cycle the signals but `reg_rdata` are those of the state at its start (R72, R73). -/
theorem cycleNext_out_eq (p : Inputs) (s : State) : ∃ v, (cycleNext p s).out = { stateOutputs s with regRdata := v } := by
  by_cases hread : p.rst = false ∧ p.regSel = true ∧ p.regWr = false
  · obtain ⟨hrst, hsel, hwr⟩ := hread
    exact ⟨_, cycleNext_out_of_read hrst hsel hwr s⟩
  · exact ⟨(stateOutputs s).regRdata, by rw [cycleNext_out, if_neg hread]⟩

theorem stateOutputs_takeDrive (s : State) : stateOutputs (takeDrive s) = stateOutputs s := by
  obtain ⟨h, d, htake⟩ := takeDrive_eq s
  rw [htake]
  rfl

/-- Settles O12: the outputs are those of the start state, by the head of its queue. -/
theorem outputPortSignals : Obligations.OutputPortSignals := by
  refine ⟨fun s t hstep => ?_, fun s p ops hops => ?_⟩
  · obtain ⟨v, hout⟩ := cycleNext_out_eq (nextDrive s).inputs (takeDrive s)
    rw [step_eq, Host.Outcome.next.injEq] at hstep
    rw [← hstep, hout, stateOutputs_takeDrive]
    cases hq : s.queue with
    | nil =>
      rw [stateOutputs_of_empty hq]
      exact ⟨rfl, rfl, rfl, rfl⟩
    | cons p rest =>
      rw [stateOutputs_of_head hq]
      exact ⟨rfl, rfl, beq_iff_eq, beq_iff_eq⟩
  · rw [mem_cycleOps_of_port hops (.inr rfl), mValid_iff]
    cases p.sLast <;> simp <;> tauto

/-- The fields of the header beat (R76). -/
theorem headerWord_fields (p : Packet) :
    (headerWord p).extractLsb' 0 16 = p.bitCount ∧ (headerWord p).getLsbD 16 = p.validCheck ∧
      (headerWord p).extractLsb' 17 7 = 0#7 ∧ (headerWord p).extractLsb' 24 8 = BitVec.ofNat 8 p.data.length := by
  refine ⟨BitVec.extractLsb'_append_eq_right, ?_, ?_, ?_⟩
  · simp only [headerWord, BitVec.getLsbD_append]
    simp
  · rw [headerWord, BitVec.extractLsb'_append_eq_of_le (by decide), BitVec.extractLsb'_append_eq_of_le (by decide)]
    exact BitVec.extractLsb'_append_eq_right
  · rw [headerWord, BitVec.extractLsb'_append_eq_of_le (by decide), BitVec.extractLsb'_append_eq_of_le (by decide)]
    exact BitVec.extractLsb'_append_eq_left

/-- The fields of a data beat (R77). -/
theorem setWidth_byte_fields (x : Byte) :
    (BitVec.setWidth 32 x).extractLsb' 0 8 = x ∧ (BitVec.setWidth 32 x).extractLsb' 8 24 = 0#24 := by
  constructor
  · rw [BitVec.extractLsb'_setWidth_of_le (by decide), BitVec.extractLsb'_eq_self]
  · refine BitVec.eq_of_getLsbD_eq fun i hi => ?_
    simp [hi]

/-- Settles O13: beat 0 is the header word, beat `k` the zero-extended byte `k - 1`. -/
theorem beatFormats : Obligations.BeatFormats := by
  intro s p rest hq hpos hlen
  have hout : (driveOutputs s).out = _ := stateOutputs_of_head hq
  refine ⟨fun hbeat => ?_, fun k hk hk' hbeat => ?_⟩
  · obtain ⟨hcount, hcheck, hzero, hbytes⟩ := headerWord_fields p
    have hnumber : ((headerWord p).extractLsb' 24 8).toNat = p.data.length := by
      rw [hbytes, BitVec.toNat_ofNat, Nat.mod_eq_of_lt (by omega)]
    rw [hout, hbeat]
    exact ⟨hcount, hcheck, hzero, hnumber, rfl, beq_eq_false_iff_ne.mpr (Nat.ne_of_lt hpos)⟩
  · obtain ⟨j, rfl⟩ : ∃ j, k = j + 1 := Nat.exists_eq_add_of_le' hk
    obtain ⟨hbyte, hzero⟩ := setWidth_byte_fields (p.data.getD j 0#8)
    have hget : p.data[j]? = some (p.data.getD j 0#8) := by
      rw [List.getD_eq_getElem _ _ hk', List.getElem?_eq_getElem hk']
    have hne : s.beat ≠ 0#8 := by
      rintro h
      simp [h] at hbeat
    rw [hout, hbeat]
    exact ⟨hget.trans (congrArg some hbyte.symm), hzero, beq_eq_false_iff_ne.mpr hne, beq_iff_eq⟩

/-! ## The PORT word (R75) -/

/-- The bits of three joined ones. -/
theorem getLsbD_three_bits (a b c : Bool) :
    (BitVec.ofBool a ++ BitVec.ofBool b ++ BitVec.ofBool c).getLsbD 2 = a ∧
      (BitVec.ofBool a ++ BitVec.ofBool b ++ BitVec.ofBool c).getLsbD 1 = b ∧
      (BitVec.ofBool a ++ BitVec.ofBool b ++ BitVec.ofBool c).getLsbD 0 = c := by
  decide +revert

theorem portWord_bits (s : State) (p : Inputs) :
    (portWord s p).getLsbD 2 = (p.sValid && sReady s) ∧ (portWord s p).getLsbD 1 = (p.sValid && sReady s && p.sLast) ∧
      (portWord s p).getLsbD 0 = (mValid s && p.mReady) := getLsbD_three_bits _ _ _

/-- Settles O5: bit 1 implies bit 2, and an enabled block with a packet shows the three operations at once. -/
theorem portWordOfCycle : Obligations.PortWordOfCycle := by
  refine ⟨fun s p => ?_, { State.reset with en := true, queue := [placedPacket] },
    { Inputs.idle with regSel := true, regWr := true, sValid := true, mReady := true }, 0#32, 0#32, rfl⟩
  obtain ⟨hsample, hlast, hbeat⟩ := portWord_bits s p
  rw [hsample, hlast, hbeat]
  refine ⟨by simp, by simp [and_assoc], by simp, fun hword => ?_⟩
  rw [hword] at hsample hlast
  simp [← hsample] at hlast

/-! ## The input signals of an operation (R71 to R73, R82) -/

/-- The signals of a register operation stand for it alone. -/
theorem cycleOps_of_bus {i : Instr} {op : BitVec 9} {w : Word} (hword : i.opWord = .bus op w) (hi : i.wellFormed = true)
    (s : State) : cycleOps s i.inputs = .ok [i] := by
  have hdecoded := decoded_opWord hi
  rw [hword] at hdecoded
  have hops : busOps i.inputs = [decodeBus op w] := by simp only [busOps, Instr.inputs, hword, busOp_bit_addr, if_true]
  rw [← hdecoded, cycleOps_eq, hops] <;> simp [Instr.inputs, hword, Inputs.idle, OpWord.decoded]

/-- Settles O7: a register operation needs no handshake, and an open handshake lets the port operations through. -/
theorem operationCanBeDriven : Obligations.OperationCanBeDriven := by
  intro i s hi hsample hbeat
  cases i with
  | sample x | sampleLast x =>
    rw [cycleOps_eq rfl]
    simp [Instr.inputs, Instr.opWord, Inputs.idle, busOps, hsample rfl]
  | beat =>
    rw [cycleOps_eq rfl]
    simp [Instr.inputs, Instr.opWord, Inputs.idle, busOps, hbeat rfl]
  | reset => exact cycleOps_rst rfl s
  | _ => exact cycleOps_of_bus rfl hi s

end Sys2Proof.Machine
end

section
/-! Proofs about the bit synchronizer (40_bit_synchronizer.md): the slicer, the tolerance windows and classes, when a gap is
reached, and the samples that end no interval. -/

namespace Sys2Proof.Machine

/-! ## The slicer (R100, R101) -/

/-- The value of a word by sign and magnitude, on which binary32 values have their order (R11, R100). -/
def signedMagnitude (z : Word) : Int :=
  if z.getLsbD 31 then -((z.extractLsb' 0 31).toNat : Int) else ((z.extractLsb' 0 31).toNat : Int)

theorem signBit_eq (z : Word) : z.getLsbD 31 = decide (2 ^ 31 ≤ z.toNat) := BitVec.msb_eq_decide z

/-- Bit 31 and bits 30:0, as the high and the low part of the word's number. -/
theorem signedMagnitude_eq (z : Word) :
    signedMagnitude z = if 2 ^ 31 ≤ z.toNat then 2 ^ 31 - (z.toNat : Int) else (z.toNat : Int) := by
  have hlt := z.isLt
  simp only [signedMagnitude, signBit_eq, decide_eq_true_eq, BitVec.extractLsb'_toNat, Nat.shiftRight_zero]
  split <;> omega

/-- `key` counts up from the most negative value, both zeros at 2^31: a negative value stands one below its distance from
them (R100). -/
theorem key_toNat (z : Word) :
    ((key z).toNat : Int) = 2 ^ 31 + signedMagnitude z - if signedMagnitude z < 0 then 1 else 0 := by
  have hlt := z.isLt
  rw [signedMagnitude_eq]
  by_cases hzero : z = 0x80000000#32
  · subst hzero
    decide
  · have hne : z.toNat ≠ 2 ^ 31 := fun h => hzero (BitVec.eq_of_toNat_eq h)
    simp only [key, canon, if_neg hzero, signBit_eq, decide_eq_true_eq]
    split
    · rw [if_pos (by omega), BitVec.toNat_sub]
      simp only [BitVec.toNat_ofNat]
      omega
    · rw [if_neg (by omega), BitVec.toNat_add]
      simp only [BitVec.toNat_ofNat]
      omega

/-- Settles O30: `key` is strictly monotone in the signed magnitude. -/
theorem greaterThanIsNumericOrder : Obligations.GreaterThanIsNumericOrder := by
  intro x y
  change gtF x y = true ↔ signedMagnitude y < signedMagnitude x
  have hx := key_toNat x
  have hy := key_toNat y
  rw [gtF, BitVec.ult, decide_eq_true_eq]
  split at hx <;> split at hy <;> omega

theorem isNaN_eq_true_iff (x : Word) : isNaN x = true ↔ x.extractLsb' 23 8 = 0xFF#8 ∧ x.extractLsb' 0 23 ≠ 0#23 := by
  simp [isNaN]

theorem gtF_self (x : Word) : gtF x x = false := by
  simp [gtF, BitVec.ult]

theorem slice_of_isNaN_thresh {th : Word} (h : isNaN th = true) (x : Word) : slice th x = false := by
  simp [slice, h]

/-! ## One sample (R102, R103, R107, R108) -/

theorem exec_sample_ready {s : State} (hs : sReady s = true) (x : Word) :
    exec (.sample x) s = .next (sampleStep x false s) := by
  rw [exec_eq_effect, (effect_sample_ready hs x).1]

theorem exec_sampleLast_ready {s : State} (hs : sReady s = true) (x : Word) :
    exec (.sampleLast x) s = .next (sampleStep x true s) := by
  rw [exec_eq_effect, (effect_sample_ready hs x).2]

/-- The gap of a SEARCHING decoder may be handled or not: it does nothing (R129). -/
theorem onlyIf_gapReached_searching (c : Bool) {s : State} (hs : s.dec.phase = .searching) : onlyIf c gapReached s = s := by
  cases c with
  | false => rfl
  | true => exact gapReached_searching s hs

/-- In SEARCHING the end of a high interval does nothing (R124). -/
theorem highEnded_searching (len : Half) {s : State} (hs : s.dec.phase = .searching) : highEnded len s = s := by
  simp [highEnded, hs]

/-- In SEARCHING a sample of the line's own level only counts (R102). -/
theorem sampleStep_flat_searching {s : State} {x : Word} (hs : s.dec.phase = .searching)
    (hlvl : slice s.cfg.thresh x = s.dec.lvl) :
    sampleStep x false s = setLine s.dec.lvl (sat16 (s.dec.run.toNat + 1)) s := by
  rw [sampleStep_flat x s hlvl, onlyIf_gapReached_searching _ (by simp [hs])]

/-- In SEARCHING a level-0 sample only moves the line tracker: a frame opens on a rising edge (R121, R122). -/
theorem sampleStep_low_searching {s : State} {x : Word} (hs : s.dec.phase = .searching) (hlow : slice s.cfg.thresh x = false) :
    ∃ r, sampleStep x false s = setLine false r s := by
  cases hlvl : s.dec.lvl with
  | false =>
    have hflat := sampleStep_flat_searching hs (hlow.trans hlvl.symm)
    exact ⟨_, hlvl ▸ hflat⟩
  | true =>
    rw [sampleStep_falling x s hlvl hlow, highEnded_searching _ hs, onlyIf_gapReached_searching _ (by simp [hs])]
    exact ⟨_, rfl⟩

/-- Settles O31: with a NaN threshold every sample is low, and a low sample opens no frame. -/
theorem slicerLevel : Obligations.SlicerLevel := by
  refine ⟨fun th x => ?_, fun th x hx => ?_, fun th x hth => slice_of_isNaN_thresh hth x, fun x => ?_, by decide,
    fun s t x hnan hs ht => ?_⟩
  · simp [slice, ← isNaN_eq_true_iff, and_assoc]
  · simp [slice, hx]
  · simp [slice, gtF_self]
  · cases hready : sReady s with
    | false =>
      have hstay : exec (.sample x) s = .next s := congrArg Host.Outcome.next (offerSample_of_not_ready hready x false)
      rw [hstay, Host.Outcome.next.injEq] at ht
      exact ht ▸ hs
    | true =>
      obtain ⟨r, hlow⟩ := sampleStep_low_searching hs (slice_of_isNaN_thresh hnan x)
      rw [exec_sample_ready hready, hlow, Host.Outcome.next.injEq] at ht
      rw [← ht]
      exact hs

/-! ## Tolerance windows and classes (R104, R105) -/

theorem inWin_eq_true_iff (tol : Word) (l n : Half) : inWin tol l n = true ↔
    (n.toNat : Int) * (65536 - tol.toNat) ≤ l.toNat * 65536 ∧ (l.toNat : Int) * 65536 ≤ n.toNat * (65536 + tol.toNat) := by
  simp [inWin]

/-- At TOL 0x4000, a quarter, the window is three to five quarters of the nominal. -/
theorem inWin_quarter_iff (l : Half) {n : Half} {k : Nat} (hn : n.toNat = 4 * k) :
    inWin 0x4000#32 l n = true ↔ 3 * k ≤ l.toNat ∧ l.toNat ≤ 5 * k := by
  rw [inWin_eq_true_iff, hn, BitVec.toNat_ofNat]
  omega

/-- The window as R104 gives it, before it is scaled by 65536. -/
theorem inWin_iff_rat (tol : Word) (l n : Half) : inWin tol l n = true ↔
    (n.toNat : ℚ) * (1 - (tol.toNat : ℚ) / 65536) ≤ l.toNat ∧
    (l.toNat : ℚ) ≤ (n.toNat : ℚ) * (1 + (tol.toNat : ℚ) / 65536) := by
  rw [inWin_eq_true_iff, ← Int.cast_le (R := ℚ), ← Int.cast_le (R := ℚ)]
  push_cast
  have hscale (a b : ℚ) : a * 65536 ≤ b * 65536 ↔ a ≤ b := mul_le_mul_iff_left₀ (by norm_num)
  have hlo : (n.toNat : ℚ) * (65536 - tol.toNat) = n.toNat * (1 - (tol.toNat : ℚ) / 65536) * 65536 := by ring
  have hhi : (n.toNat : ℚ) * (65536 + tol.toNat) = n.toNat * (1 + (tol.toNat : ℚ) / 65536) * 65536 := by ring
  rw [hlo, hhi, hscale, hscale]

/-- Settles O32: scaled by 65536 the integer window is the rational one, and at TOL 0x4000 it is evaluated. -/
theorem windowIsClosedInterval : Obligations.WindowIsClosedInterval := by
  refine ⟨inWin_iff_rat, fun tol l hl => ?_, fun _ n => inWin_self n, fun l => inWin_quarter_iff l (k := 1) rfl,
    fun tol l n htol => ⟨by omega, ?_, ?_⟩⟩
  · rw [Bool.eq_false_iff, ne_eq, inWin_eq_true_iff]
    simp only [BitVec.toNat_ofNat]
    omega
  · calc n.toNat * (65536 + tol.toNat) ≤ 65536 * (65536 + tol.toNat) := Nat.mul_le_mul_right _ n.isLt.le
      _ < 2 ^ 33 := by omega
  · have hl := l.isLt
    omega

/-- The class of an interval, by the two windows in their order (R105). -/
theorem classify_iff (c : ConfigRegs) (l : Half) :
    (classify c l = .short ↔ inWin c.tol l c.shortNom = true) ∧
    (classify c l = .long ↔ inWin c.tol l c.shortNom = false ∧ inWin c.tol l c.longNom = true) ∧
    (classify c l = .none ↔ inWin c.tol l c.shortNom = false ∧ inWin c.tol l c.longNom = false) := by
  unfold classify
  cases inWin c.tol l c.shortNom <;> cases inWin c.tol l c.longNom <;> decide

/-- Settles O33: the reset windows are a quarter around 4 and around 8. -/
theorem shortIsTestedFirst : Obligations.ShortIsTestedFirst := by
  refine ⟨classify_iff, fun l => ?_⟩
  have hshort : inWin ConfigRegs.reset.tol l ConfigRegs.reset.shortNom = true ↔ 3 ≤ l.toNat ∧ l.toNat ≤ 5 :=
    inWin_quarter_iff l (k := 1) rfl
  have hlong : inWin ConfigRegs.reset.tol l ConfigRegs.reset.longNom = true ↔ 6 ≤ l.toNat ∧ l.toNat ≤ 10 :=
    inWin_quarter_iff l (k := 2) rfl
  obtain ⟨hisShort, hisLong, hisNone⟩ := classify_iff ConfigRegs.reset l
  rw [hisShort, hisLong, hisNone, ← Bool.not_eq_true, ← Bool.not_eq_true, hshort, hlong]
  omega

/-! ## The gap (R107) -/

/-- Settles O34: the capped run of R102 is GAP_MIN again only at saturation, where the last condition of R107 bars it. -/
theorem gapIsReachedOnce : Obligations.GapIsReachedOnce := by
  refine fun c run => ⟨fun edge old => rfl, ?_, ?_⟩
  · have hhit : gapHit c false (nextRun true run) true run = true ↔ 1#16 = c.gapMin := by simp [gapHit, nextRun]
    exact hhit.trans eq_comm
  · have hrun := run.isLt
    have hgap := c.gapMin.isLt
    have hhit : gapHit c false (nextRun false run) false run = true ↔
        sat16 (run.toNat + 1) = c.gapMin ∧ run.toNat < 65535 := by simp [gapHit, nextRun]
    rw [hhit, ← BitVec.toNat_inj, sat16_toNat]
    omega

/-! ## The line tracker (R102, R103, R136) -/

theorem onlyIf_gapReached_line (c : Bool) (s : State) :
    (onlyIf c gapReached s).dec.lvl = s.dec.lvl ∧ (onlyIf c gapReached s).dec.run = s.dec.run := by
  cases c with
  | false => exact ⟨rfl, rfl⟩
  | true => exact gapReached_line s

/-- The sample step moves the line tracker to the sample (R102, R108). -/
theorem sampleStep_line (x : Word) (s : State) :
    (sampleStep x false s).dec.lvl = slice s.cfg.thresh x ∧
    (sampleStep x false s).dec.run = nextRun (slice s.cfg.thresh x != s.dec.lvl) s.dec.run :=
  onlyIf_gapReached_line _ _

theorem nextRun_toNat (a b : Bool) (run : Half) :
    (nextRun (a != b) run).toNat = if a = b then min (run.toNat + 1) 65535 else 1 := by
  by_cases h : a = b <;> simp [nextRun, h, sat16_toNat]

/-- Settles O35: the edge and the gap leave the line tracker to the sample step, and the stream end sets it. -/
theorem sampleTracksTheLine : Obligations.SampleTracksTheLine := by
  intro s x hs
  obtain ⟨hlvl, hrun⟩ := sampleStep_line x s
  refine ⟨⟨_, exec_sample_ready hs x, sampleStep_sameControl x false s, hlvl, ?_⟩,
    ⟨_, exec_sampleLast_ready hs x, sampleStep_sameControl x true s, rfl, rfl⟩⟩
  rw [hrun, nextRun_toNat]

/-- Capped counting, one count after another (R9). -/
theorem sat16_sat16_add (m n : Nat) : sat16 ((sat16 m).toNat + n) = sat16 (m + n) := by
  rw [sat16_toNat]
  unfold sat16
  congr 1
  omega

theorem sat16_toNat_self (r : Half) : sat16 r.toNat = r :=
  BitVec.eq_of_toNat_eq (by rw [sat16_toNat]; have := r.isLt; omega)

/-- `n` samples of the line's own level in SEARCHING lengthen the run by `n` (R102). -/
theorem execList_flat_searching {s : State} {x : Word} (n : Nat) (hs : sReady s = true) (hphase : s.dec.phase = .searching)
    (hlvl : slice s.cfg.thresh x = s.dec.lvl) :
    execList (List.replicate n (.sample x)) s = .next (setLine s.dec.lvl (sat16 (s.dec.run.toNat + n)) s) := by
  induction n generalizing s with
  | zero =>
    rw [Nat.add_zero, sat16_toNat_self]
    rfl
  | succ n ih =>
    rw [List.replicate_succ, execList_cons, (effect_sample_ready hs x).1, sampleStep_flat_searching hphase hlvl]
    refine (ih (s := setLine s.dec.lvl (sat16 (s.dec.run.toNat + 1)) s) hs hphase hlvl).trans ?_
    simp only [setLine_dec, sat16_sat16_add, Nat.add_assoc, Nat.add_comm 1]
    rfl

/-- Settles O36, by induction on the number of samples. -/
theorem constantInputOnlyCounts : Obligations.ConstantInputOnlyCounts :=
  fun n _ _ hs hphase hlvl => execList_flat_searching n hs hphase hlvl

/-- Settles O39: no interval ends, so the run is lengthened and then the gap is looked for. -/
theorem sampleInsideARun : Obligations.SampleInsideARun := by
  intro s x hs hlvl
  refine ⟨_, rfl, ?_⟩
  rw [exec_sample_ready hs, sampleStep_flat x s hlvl]
  simp only [onlyIf, decide_eq_true_eq]
  rfl

end Sys2Proof.Machine
end

section
/-! Proofs about the Framer (41_framer.md): what its procedures do in each phase, the samples that open, fill and close a frame,
and what a step does to the decoder. -/

namespace Sys2Proof.Machine

theorem onlyIf_of {P : State → Prop} {f : State → State} {s : State} (c : Bool) (hf : P (f s)) (hs : P s) :
    P (onlyIf c f s) := by
  cases c with
  | false => exact hs
  | true => exact hf

theorem Phase.isOpen_iff {ph : Phase} : ph.isOpen = true ↔ ph = .syncing ∨ ph = .collecting := by
  cases ph <;> simp [isOpen]

theorem Phase.ne_emit_of_isOpen {ph : Phase} (hopen : ph.isOpen = true) : ph ≠ .emit := by
  rintro rfl
  simp [isOpen] at hopen

/-! ## Bits (R125 to R128) -/

/-- What a bit of an open frame can do: it goes on in the preamble or ends it, matching or not, or it goes on in a byte or ends
it, with room or without. -/
inductive PushesBit (b : Bool) (s : State) : State → Prop where
  | agrees (hphase : s.dec.phase = .syncing) (hbit : b = preambleBit s.cfg s.dec.preCnt)
      (hmore : s.dec.preCnt + 1#5 ≠ s.cfg.preLen) : PushesBit b s (matchBit (countBit s))
  | agreesLast (hphase : s.dec.phase = .syncing) (hbit : b = preambleBit s.cfg s.dec.preCnt)
      (hlast : s.dec.preCnt + 1#5 = s.cfg.preLen) : PushesBit b s (setPhase .collecting (matchBit (countBit s)))
  | differs (hphase : s.dec.phase = .syncing) (hbit : b ≠ preambleBit s.cfg s.dec.preCnt) :
      PushesBit b s (abort .preambleMismatch (countBit s))
  | appends (hphase : s.dec.phase = .collecting) (hmore : s.dec.nbits + 1#4 ≠ 8#4) : PushesBit b s (appendBit b s)
  | fills (hphase : s.dec.phase = .collecting) (hlast : s.dec.nbits + 1#4 = 8#4)
      (hroom : s.dec.nbytes.toNat ≠ s.params.maxBytes) :
      PushesBit b s { appendBit b s with
        buf := s.buf.set s.dec.nbytes.toNat (appendBit b s).dec.cur
        dec := { (appendBit b s).dec with nbytes := s.dec.nbytes + 1#8, cur := 0#8, nbits := 0#4 } }
  | overflows (hphase : s.dec.phase = .collecting) (hlast : s.dec.nbits + 1#4 = 8#4)
      (hfull : s.dec.nbytes.toNat = s.params.maxBytes) : PushesBit b s (abort .overflow (appendBit b s))

theorem pushBit_collecting (b : Bool) {s : State} (hphase : s.dec.phase = .collecting) : pushBit b s = pushPayloadBit b s := by
  simp [pushBit, hphase]

theorem pushBit_of_more {s : State} (b : Bool) (hphase : s.dec.phase = .collecting) (hmore : s.dec.nbits + 1#4 ≠ 8#4) :
    pushBit b s = appendBit b s := by
  rw [pushBit_collecting b hphase, pushPayloadBit, if_neg hmore]

theorem pushBit_of_eighth {s : State} (b : Bool) (hphase : s.dec.phase = .collecting) (hlast : s.dec.nbits + 1#4 = 8#4) :
    pushBit b s = byteDone (appendBit b s) := by
  rw [pushBit_collecting b hphase, pushPayloadBit, if_pos hlast]

theorem pushBit_syncing (b : Bool) {s : State} (hphase : s.dec.phase = .syncing) : pushBit b s = pushPreambleBit b s := by
  simp [pushBit, hphase]

theorem pushBit_pushesBit (b : Bool) {s : State} (hopen : s.dec.phase.isOpen = true) : PushesBit b s (pushBit b s) := by
  cases hphase : s.dec.phase with
  | syncing =>
    rw [pushBit_syncing b hphase, pushPreambleBit]
    split
    · split
      · exact .agreesLast hphase ‹_› ‹_›
      · exact .agrees hphase ‹_› ‹_›
    · exact .differs hphase ‹_›
  | collecting =>
    by_cases hlast : s.dec.nbits + 1#4 = 8#4
    · rw [pushBit_of_eighth b hphase hlast]
      by_cases hfull : s.dec.nbytes.toNat = s.params.maxBytes
      · rw [byteDone_of_full (appendBit b s) hfull]
        exact .overflows hphase hlast hfull
      · rw [byteDone_of_room (appendBit b s) hfull]
        exact .fills hphase hlast hfull
    · rw [pushBit_of_more b hphase hlast]
      exact .appends hphase hlast
  | searching | validating | emit => simp [hphase, Phase.isOpen_iff] at hopen

theorem byte_shiftLeft_or_bit_toNat (x : Byte) (b : Bool) :
    (x <<< 1 ||| BitVec.setWidth 8 (BitVec.ofBool b)).toNat = (2 * x.toNat + b.toNat) % 256 := by
  have hdisjoint : x <<< 1 &&& BitVec.setWidth 8 (BitVec.ofBool b) = 0#8 := by
    ext i hi
    cases i <;> cases b <;> simp
  rw [← BitVec.add_eq_or_of_and_eq_zero _ _ hdisjoint]
  cases b <;> simp [Nat.shiftLeft_eq, Nat.mul_comm 2]

/-- Settles O40: the bit goes in below `cur`, and whether it is the eighth and whether there is room choose the case. -/
theorem payloadBits : Obligations.PayloadBits := by
  intro s b hphase hle
  refine ⟨(appendBit b s).dec.cur, byte_shiftLeft_or_bit_toNat _ b, fun hmore => ?_, fun hlast hroom => ?_,
    fun hlast hfull => ?_⟩
  · have hbits : s.dec.nbits + 1#4 ≠ 8#4 := by bv_omega
    rw [pushBit_of_more b hphase hbits]
    rfl
  · have hbits : s.dec.nbits + 1#4 = 8#4 := by bv_omega
    rw [pushBit_of_eighth b hphase hbits, byteDone_of_room (appendBit b s) hroom]
    rfl
  · have hbits : s.dec.nbits + 1#4 = 8#4 := by bv_omega
    rw [pushBit_of_eighth b hphase hbits, byteDone_of_full (appendBit b s) hfull, ← hbits]
    rfl

/-- The frame with the first `j` bits of the byte `y` after the bits it has (R125). -/
def withBits (s : State) (y : Byte) (j : Nat) : State :=
  { s with
    dec := { s.dec with bitTotal := s.dec.bitTotal + BitVec.ofNat 16 j, cur := y >>> (8 - j), nbits := BitVec.ofNat 4 j } }

theorem withBits_zero {s : State} (y : Byte) (hcur : s.dec.cur = 0#8) (hnbits : s.dec.nbits = 0#4) : withBits s y 0 = s := by
  have hshift : y >>> 8 = s.dec.cur := hcur ▸ BitVec.ushiftRight_eq_zero (by decide)
  simp [withBits, hshift, ← hnbits]

theorem appendBit_withBits (s : State) (y : Byte) {j : Nat} (hj : j ≤ 7) :
    appendBit (y.getLsbD (7 - j)) (withBits s y j) = withBits s y (j + 1) := by
  simp only [appendBit, withBits, shiftLeft_or_next_bit y hj, ← BitVec.ofNat_add, BitVec.add_assoc]

theorem pushBit_withBits {s : State} (hphase : s.dec.phase = .collecting) (y : Byte) {j : Nat} (hj : j < 7) :
    pushBit (y.getLsbD (7 - j)) (withBits s y j) = withBits s y (j + 1) := by
  have hbits : BitVec.ofNat 4 j + 1#4 ≠ 8#4 := by
    rw [← BitVec.ofNat_add, ne_eq, ← BitVec.toNat_inj]
    simp
    omega
  rw [pushBit_of_more (s := withBits s y j) _ hphase hbits, appendBit_withBits s y hj.le]

theorem pushBit_withBits_last {s : State} (hphase : s.dec.phase = .collecting) (y : Byte) (hcur : s.dec.cur = 0#8)
    (hnbits : s.dec.nbits = 0#4) (hroom : s.dec.nbytes.toNat ≠ s.params.maxBytes) :
    pushBit (y.getLsbD 0) (withBits s y 7) = { s with
      buf := s.buf.set s.dec.nbytes.toNat y
      dec := { s.dec with bitTotal := s.dec.bitTotal + 8#16, nbytes := s.dec.nbytes + 1#8 } } := by
  have happend : appendBit (y.getLsbD 0) (withBits s y 7) = withBits s y 8 := appendBit_withBits s y le_rfl
  have hbits : (withBits s y 7).dec.nbits + 1#4 = 8#4 := rfl
  rw [pushBit_of_eighth (s := withBits s y 7) _ hphase hbits, happend, byteDone_of_room (withBits s y 8) hroom]
  simp [withBits, hcur, hnbits]

/-- Settles O41: seven bits come into `cur` one by one, and the eighth completes the byte. -/
theorem eightBitsMakeAByte : Obligations.EightBitsMakeAByte := by
  intro s y hphase hnbits hcur hroom
  have hseven (n : Nat) (hn : n ≤ 7) :
      ((List.range n).map fun j => y.getLsbD (7 - j)).foldl (fun t b => pushBit b t) s = withBits s y n := by
    induction n with
    | zero => exact (withBits_zero y hcur hnbits).symm
    | succ n ih => simp [List.range_succ, ih (by omega), pushBit_withBits hphase y hn]
  have hlast := pushBit_withBits_last hphase y hcur hnbits hroom.ne
  rw [← hseven 7 le_rfl] at hlast
  exact hlast

/-- Settles O42: the bit agrees with its preamble bit or not, and one that agrees is the last or not. -/
theorem preambleBits : Obligations.PreambleBits := by
  intro s b hphase hlt
  refine ⟨fun hbit => ?_, fun hbit => ?_⟩
  · rw [pushBit_syncing b hphase, pushPreambleBit, if_pos (show b = preambleBit s.cfg s.dec.preCnt from hbit)]
    have hlast : s.dec.preCnt + 1#5 = s.cfg.preLen ↔ s.dec.preCnt.toNat + 1 = s.cfg.preLen.toNat := by
      rw [← BitVec.toNat_inj]
      bv_omega
    simp only [hlast]
    split
    · rfl
    · simp [countBit, matchBit, hphase]
  · rw [pushBit_syncing b hphase, pushPreambleBit, if_neg (show ¬ b = preambleBit s.cfg s.dec.preCnt from hbit)]
    rfl

/-! ## Finished intervals (R121 to R124) -/

theorem lowEnded_opens {s : State} {len : Half} (hphase : s.dec.phase = .searching) (hgap : s.cfg.gapMin.toNat ≤ len.toNat) :
    lowEnded len s = startFrame s := by simp [lowEnded, hphase, hgap]

theorem lowEnded_short {s : State} {len : Half} (hphase : s.dec.phase = .searching) (hgap : len.toNat < s.cfg.gapMin.toNat) :
    lowEnded len s = s := by simp [lowEnded, hphase, hgap.not_ge]

theorem lowEnded_of_none {s : State} {len : Half} (hopen : s.dec.phase.isOpen = true) (hclass : classify s.cfg len = .none) :
    lowEnded len s = abort .syncLossLow s := by
  rcases Phase.isOpen_iff.mp hopen with hphase | hphase <;> simp [lowEnded, hphase, hclass]

theorem highEnded_of_none {s : State} {len : Half} (hopen : s.dec.phase.isOpen = true) (hclass : classify s.cfg len = .none) :
    highEnded len s = abort .syncLossHigh s := by
  rcases Phase.isOpen_iff.mp hopen with hphase | hphase <;> simp [highEnded, hphase, hclass]

theorem highEnded_of_not_open {s : State} (len : Half) (hclosed : ¬ s.dec.phase.isOpen = true) : highEnded len s = s := by
  unfold highEnded
  cases hphase : s.dec.phase with
  | syncing | collecting => exact absurd (by rw [hphase]; rfl) hclosed
  | searching | validating | emit => rfl

/-- What the interval an edge ends can do: nothing, open a frame after a gap, abort one with SYNC_LOSS_LOW or SYNC_LOSS_HIGH, or
push its bit. -/
inductive EndsInterval (s : State) : State → Prop where
  | nothing : EndsInterval s s
  | opens (hphase : s.dec.phase = .searching) (hlvl : s.dec.lvl = false) (hgap : s.cfg.gapMin.toNat ≤ s.dec.run.toNat) :
      EndsInterval s (startFrame s)
  | losesLow (hopen : s.dec.phase.isOpen = true) (hlvl : s.dec.lvl = false) (hclass : classify s.cfg s.dec.run = .none) :
      EndsInterval s (abort .syncLossLow s)
  | losesHigh (hopen : s.dec.phase.isOpen = true) (hlvl : s.dec.lvl = true) (hclass : classify s.cfg s.dec.run = .none) :
      EndsInterval s (abort .syncLossHigh s)
  | pushes {t : State} (hlvl : s.dec.lvl = true) (hclass : classify s.cfg s.dec.run ≠ .none)
      (hpush : PushesBit (bitOf s.cfg (classify s.cfg s.dec.run)) s t) : EndsInterval s t

theorem lowEnded_endsInterval {s : State} (hlvl : s.dec.lvl = false) : EndsInterval s (lowEnded s.dec.run s) := by
  cases hphase : s.dec.phase with
  | searching =>
    rcases le_or_gt s.cfg.gapMin.toNat s.dec.run.toNat with hgap | hgap
    · rw [lowEnded_opens hphase hgap]
      exact .opens hphase hlvl hgap
    · rw [lowEnded_short hphase hgap]
      exact .nothing
  | syncing | collecting =>
    have hopen : s.dec.phase.isOpen = true := by rw [hphase]; rfl
    by_cases hclass : classify s.cfg s.dec.run = .none
    · rw [lowEnded_of_none hopen hclass]
      exact .losesLow hopen hlvl hclass
    · rw [lowEnded_of_class hopen hclass]
      exact .nothing
  | validating | emit =>
    simp only [lowEnded, hphase]
    exact .nothing

theorem highEnded_endsInterval {s : State} (hlvl : s.dec.lvl = true) : EndsInterval s (highEnded s.dec.run s) := by
  by_cases hopen : s.dec.phase.isOpen = true
  · by_cases hclass : classify s.cfg s.dec.run = .none
    · rw [highEnded_of_none hopen hclass]
      exact .losesHigh hopen hlvl hclass
    · rw [highEnded_of_class hopen hclass]
      exact .pushes hlvl hclass (pushBit_pushesBit _ hopen)
  · rw [highEnded_of_not_open _ hopen]
    exact .nothing

theorem edgeStep_endsInterval (s : State) : EndsInterval s (edgeStep s) := by
  unfold edgeStep
  cases hlvl : s.dec.lvl with
  | true => exact highEnded_endsInterval hlvl
  | false => exact lowEnded_endsInterval hlvl

/-! ## The closing gap (R129, R130, R160, R161) -/

theorem completeFrame_of_room {s : State} (hroom : s.queue.length < s.params.outqDepth) :
    completeFrame s = setPhase .searching (push (framePacket s) s) := if_pos (decide_eq_true hroom)

theorem completeFrame_of_full {s : State} (hfull : s.params.outqDepth ≤ s.queue.length) :
    completeFrame s = { s with dec := { s.dec with phase := .emit, pend := some (framePacket s) } } :=
  if_neg (Bool.not_eq_true _ ▸ decide_eq_false hfull.not_gt)

/-- Settles O43: the phase and the bits collected choose the branch. -/
theorem gapClosesTheFrame : Obligations.GapClosesTheFrame := by
  refine fun s => ⟨gapReached_searching s, ?_, fun hphase hbits hbytes => ?_⟩
  · rintro (hphase | ⟨hphase, hpart⟩)
    · simp only [gapReached, hphase]
      rfl
    · simp only [gapReached, hphase, if_pos hpart]
      rfl
  · simp only [gapReached, hphase, if_neg (not_or.mpr ⟨not_not.mpr hbits, hbytes⟩)]

/-- Settles O44: the packet is that of the frame, and the room in the queue chooses between the push and EMIT. -/
theorem completedFrameIsEmitted : Obligations.CompletedFrameIsEmitted :=
  fun s => ⟨framePacket s, rfl, rfl, rfl, completeFrame_of_room, completeFrame_of_full⟩

/-- What a gap can do: nothing while no frame is open, discard the frame, or complete one of whole bytes, whose packet enters
the queue or waits in EMIT. -/
inductive ReachesGap (s : State) : State → Prop where
  | nothing (hclosed : ¬ s.dec.phase.isOpen = true) : ReachesGap s s
  | discards (hopen : s.dec.phase.isOpen = true) : ReachesGap s (abort .incompleteGap s)
  | queues (hphase : s.dec.phase = .collecting) (hbits : s.dec.nbits = 0#4) (hbytes : s.dec.nbytes ≠ 0#8)
      (hroom : s.queue.length < s.params.outqDepth) : ReachesGap s (setPhase .searching (push (framePacket s) s))
  | holds (hphase : s.dec.phase = .collecting) (hbits : s.dec.nbits = 0#4) (hbytes : s.dec.nbytes ≠ 0#8)
      (hfull : s.params.outqDepth ≤ s.queue.length) :
      ReachesGap s { s with dec := { s.dec with phase := .emit, pend := some (framePacket s) } }

theorem gapReached_reachesGap (s : State) : ReachesGap s (gapReached s) := by
  unfold gapReached
  cases hphase : s.dec.phase with
  | syncing => exact .discards (by rw [hphase]; rfl)
  | collecting =>
    simp only
    split
    · exact .discards (by rw [hphase]; rfl)
    · rename_i hwhole
      obtain ⟨hbits, hbytes⟩ := not_or.mp hwhole
      rcases lt_or_ge s.queue.length s.params.outqDepth with hroom | hfull
      · rw [completeFrame_of_room hroom]
        exact .queues hphase (not_not.mp hbits) hbytes hroom
      · rw [completeFrame_of_full hfull]
        exact .holds hphase (not_not.mp hbits) hbytes hfull
  | searching | validating | emit => exact .nothing (by simp [hphase, Phase.isOpen])

/-- No frame is open after a gap (R129). -/
theorem gapReached_not_open (s : State) : ¬ (gapReached s).dec.phase.isOpen = true := by
  have hgap := gapReached_reachesGap s
  generalize gapReached s = t at hgap ⊢
  cases hgap with
  | nothing hclosed => exact hclosed
  | discards | queues | holds => simp [Phase.isOpen]

/-- The EMIT retry pushes the pending packet into a queue with room, or does nothing (R162). -/
theorem emitRetry_cases (s : State) :
    (∃ p, s.dec.pend = some p ∧ s.queue.length < s.params.outqDepth ∧
      emitRetry s = push p { s with dec := { s.dec with phase := .searching, pend := none } }) ∨
    ((s.dec.pend = none ∨ s.params.outqDepth ≤ s.queue.length) ∧ emitRetry s = s) := by
  unfold emitRetry
  cases s.dec.pend with
  | none => exact .inr ⟨.inl rfl, rfl⟩
  | some p =>
    rcases lt_or_ge s.queue.length s.params.outqDepth with hroom | hfull
    · exact .inl ⟨p, rfl, hroom, if_pos (decide_eq_true hroom)⟩
    · exact .inr ⟨.inr hfull, if_neg (by simpa [outqRoom] using hfull)⟩

/-! ## Samples (R108, R121 to R124, R136) -/

theorem streamEnd_of_open {s : State} (hopen : s.dec.phase.isOpen = true) :
    streamEnd s = setLine false 0xFFFF#16 (abort .incompleteStreamEnd s) := by
  rcases Phase.isOpen_iff.mp hopen with hphase | hphase <;> simp [streamEnd, dropOpenFrame, hphase]

theorem streamEnd_of_not_open {s : State} (hclosed : ¬ s.dec.phase.isOpen = true) :
    streamEnd s = setLine false 0xFFFF#16 s := by
  unfold streamEnd dropOpenFrame
  cases hphase : s.dec.phase with
  | syncing | collecting => exact absurd (by rw [hphase]; rfl) hclosed
  | searching | validating | emit => rfl

/-- Settles O37: the rising edge ends a low interval. -/
theorem sampleOnRisingEdge : Obligations.SampleOnRisingEdge := by
  intro s x hs hlvl hhigh
  rw [exec_sample_ready hs, sampleStep_rising x s hlvl hhigh]
  refine ⟨fun hphase hgap => ?_, fun hphase hgap => ?_, fun hopen hclass => ?_, fun hopen hclass => ?_⟩
  · rw [lowEnded_opens hphase hgap]
    by_cases hpre : s.cfg.preLen = 0#5
    · simp [setLine, startFrame, hpre]
    · have hpos : 0 < s.cfg.preLen.toNat := by bv_omega
      simp [setLine, startFrame, hpre, hpos]
  · rw [lowEnded_short hphase hgap]
    rfl
  · rw [lowEnded_of_none hopen hclass]
    rfl
  · rw [lowEnded_of_class hopen hclass]
    rfl

theorem bitOf_eq_ite (c : ConfigRegs) (k : IntervalClass) : bitOf c k = if k = .long then !c.bitpol else c.bitpol := by
  unfold bitOf
  cases k <;> cases c.bitpol <;> decide

/-- Settles O38: the falling edge ends a high interval, and unless its bit was pushed no frame is open for the gap of the
edge. -/
theorem sampleOnFallingEdge : Obligations.SampleOnFallingEdge := by
  intro s x hs hlvl hlow
  rw [exec_sample_ready hs, sampleStep_falling x s hlvl hlow]
  refine ⟨fun hphase => ?_, fun hopen hclass => ?_, fun hopen hclass => ⟨_, rfl, _, rfl, ?_⟩⟩
  · rw [highEnded_searching _ hphase, onlyIf_gapReached_searching (s := setLine false 1#16 s) _ hphase]
    rfl
  · rw [highEnded_of_none hopen hclass,
      onlyIf_gapReached_searching (s := setLine false 1#16 (abort .syncLossHigh s)) _ rfl]
    rfl
  · rw [highEnded_of_class hopen hclass, bitOf_eq_ite]
    simp only [onlyIf, decide_eq_true_eq]
    rfl

/-- Settles O45: the stream end comes after the sample and finds a frame open or not. -/
theorem streamEndClosesTheStream : Obligations.StreamEndClosesTheStream := by
  intro s t x hs ht
  rw [exec_sample_ready hs, Host.Outcome.next.injEq] at ht
  rw [exec_sampleLast_ready hs, sampleStep_last, ht]
  refine ⟨fun hopen => ?_, fun hclosed => ?_⟩
  · rw [streamEnd_of_open hopen]
    rfl
  · rw [streamEnd_of_not_open (by simp [hclosed])]
    rfl

/-! ## A frame needs a gap (R121, R122, R133) -/

/-- No frame is open after the end of a stream (R136). -/
theorem streamEnd_not_open (s : State) : ¬ (streamEnd s).dec.phase.isOpen = true := by
  by_cases hopen : s.dec.phase.isOpen = true
  · rw [streamEnd_of_open hopen]
    simp [Phase.isOpen]
  · rw [streamEnd_of_not_open hopen]
    exact hopen

/-- A sample that opens a frame is a rising edge after a low run of GAP_MIN samples or more. -/
theorem sampleStep_opens {s : State} {x : Word} {last : Bool} (hphase : s.dec.phase = .searching)
    (hopen : (sampleStep x last s).dec.phase.isOpen = true) : s.dec.lvl = false ∧ s.cfg.gapMin.toNat ≤ s.dec.run.toNat ∧
      sampleStep x last s = setLine true 1#16 (startFrame s) := by
  have hkept {l : Bool} {r : Half} : ¬ (setLine l r s).dec.phase.isOpen = true := by simp [hphase, Phase.isOpen]
  cases last with
  | true => exact absurd hopen (streamEnd_not_open _)
  | false =>
    cases hslice : slice s.cfg.thresh x with
    | false =>
      obtain ⟨r, hstep⟩ := sampleStep_low_searching hphase hslice
      exact absurd (hstep ▸ hopen) hkept
    | true =>
      cases hlvl : s.dec.lvl with
      | true =>
        have hstep := sampleStep_flat_searching hphase (hslice.trans hlvl.symm)
        exact absurd (hstep ▸ hopen) hkept
      | false =>
        rw [sampleStep_rising x s hlvl hslice] at hopen ⊢
        rcases le_or_gt s.cfg.gapMin.toNat s.dec.run.toNat with hgap | hgap
        · exact ⟨rfl, hgap, by rw [lowEnded_opens hphase hgap]⟩
        · rw [lowEnded_short hphase hgap] at hopen
          exact absurd hopen hkept

/-! ## What a step does to the decoder (R200) -/

theorem outputStage_eq (p : Inputs) (s0 s : State) : ∃ q b, outputStage p s0 s = { s with queue := q, beat := b } := by
  unfold outputStage
  cases mValid s0 && p.mReady with
  | true => exact beatStep_eq s
  | false => exact ⟨s.queue, s.beat, rfl⟩

/-- A cycle that starts in EMIT retries (R162, R200). -/
theorem decoderStages_of_emit (p : Inputs) {s0 : State} (hemit : s0.dec.phase = .emit) (s : State) :
    decoderStages p s0 s = emitRetry s := by
  simp [decoderStages, sReady, hemit]

/-- A cycle that starts in another phase has the sample of the port, if one is accepted (R72, R200). -/
theorem decoderStages_of_not_emit (p : Inputs) {s0 : State} (hphase : s0.dec.phase ≠ .emit) (s : State) :
    decoderStages p s0 s = onlyIf (p.sValid && sReady s0) (sampleStep p.sData p.sLast) s := by
  simp [decoderStages, beq_eq_false_iff_ne.mpr hphase]

theorem writeEn_dec (req : Bool) (s : State) : (writeEn req s).dec = s.dec ∨ (writeEn req s).dec = .reset := by
  unfold writeEn enableCheck
  split
  · split <;> exact .inl rfl
  · split
    · exact .inr rfl
    · exact .inl rfl

theorem effect_configWrite_dec {i : Instr} (hi : i.isConfigWrite = true) (s : State) : (effect i s).dec = s.dec := by
  obtain ⟨upd, hupd⟩ := effect_of_isConfigWrite hi
  rcases configWrite_eq upd s with ⟨-, hwrite⟩ | ⟨-, hwrite⟩ <;> rw [hupd, hwrite]

/-- A register write keeps the decoder or, being a WR_CTRL, resets it (R175). -/
theorem effect_write_dec {i : Instr} (hi : stageOf i = .write) (s : State) :
    (effect i s).dec = s.dec ∨ (effect i s).dec = .reset := by
  cases i with
  | wrCtrl w =>
    have hsoft := onlyIf_of (P := fun t => t.dec = s.dec ∨ t.dec = .reset) (f := decoderReset) (w.getLsbD 1) (.inr rfl)
      (writeEn_dec (w.getLsbD 0) s)
    exact onlyIf_of (P := fun t => t.dec = s.dec ∨ t.dec = .reset) (f := clearCounters) (w.getLsbD 2) hsoft hsoft
  | wrStatus w =>
    simp only [effect, exec, execWrStatus]
    split <;> exact .inl rfl
  | wrCfg | wrTol | wrShortNom | wrLongNom | wrGapMin | wrThresh | wrPreamble =>
    exact .inl (effect_configWrite_dec rfl s)
  | wrRoPktCnt | wrRoBadCnt | wrRoSynclossCnt | wrRoDiscardCnt | wrRoId | wrRsvd => exact .inl rfl
  | _ => cases hi

/-- What a step can do to a decoder `d` under the configuration `c`: reset it, keep it, retry its pending packet, or process a
sample. -/
inductive DecoderStep (c : ConfigRegs) (d : Decoder) : Decoder → Prop where
  | resets : DecoderStep c d .reset
  | keeps : DecoderStep c d d
  | retries (hemit : d.phase = .emit) {s : State} (hdec : s.dec = d) : DecoderStep c d (emitRetry s).dec
  | samples (hphase : d.phase ≠ .emit) {s : State} (hdec : s.dec = d) (hcfg : s.cfg = c) (x : Word) (last : Bool) :
      DecoderStep c d (sampleStep x last s).dec

theorem decoderStages_decoderStep (p : Inputs) {s0 s : State} (hdec : s.dec = s0.dec) (hcfg : s.cfg = s0.cfg) :
    DecoderStep s0.cfg s0.dec (decoderStages p s0 s).dec := by
  by_cases hemit : s0.dec.phase = .emit
  · rw [decoderStages_of_emit p hemit]
    exact .retries hemit hdec
  · rw [decoderStages_of_not_emit p hemit]
    cases p.sValid && sReady s0 with
    | false =>
      rw [onlyIf_false, hdec]
      exact .keeps
    | true => exact .samples hemit hdec hcfg _ _

theorem cycleNext_decoderStep (p : Inputs) (s : State) : DecoderStep s.cfg s.dec (cycleNext p s).dec := by
  by_cases hrst : p.rst = true
  · rw [cycleNext, if_pos hrst]
    exact .resets
  · obtain ⟨o, hstages⟩ := cycleNext_eq_stages (Bool.eq_false_of_not_eq_true hrst) s
    obtain ⟨q, b, hout⟩ := outputStage_eq p s (setOut o s)
    have hstep : DecoderStep s.cfg s.dec (decoderStages p s (outputStage p s (setOut o s))).dec :=
      decoderStages_decoderStep p (by rw [hout]; rfl) (by rw [hout]; rfl)
    rw [hstages]
    generalize decoderStages p s (outputStage p s (setOut o s)) = u at hstep
    refine onlyIf_of (P := fun t => DecoderStep s.cfg s.dec t.dec) _ ?_ hstep
    rcases effect_write_dec (stageOf_busWrite p.regAddr p.regWdata) u with hwrite | hwrite
    · exact hwrite ▸ hstep
    · exact hwrite ▸ .resets

theorem step_decoderStep {s t : State} (hstep : step s = .next t) : DecoderStep s.cfg s.dec t.dec := by
  obtain ⟨h, d, htake⟩ := takeDrive_eq s
  rw [step_eq, Host.Outcome.next.injEq, htake] at hstep
  exact hstep ▸ cycleNext_decoderStep _ { s with host := h, drawn := d }

/-- Settles O47: of the steps from SEARCHING only a sample opens a frame, and it is the rising edge. -/
theorem frameNeedsAGap : Obligations.FrameNeedsAGap := by
  intro s t hphase hstep hopen
  have hdec := step_decoderStep hstep
  generalize t.dec = d at hdec hopen ⊢
  cases hdec with
  | resets => simp [Decoder.reset, Phase.isOpen] at hopen
  | keeps => simp [hphase, Phase.isOpen] at hopen
  | retries hemit => simp [hphase] at hemit
  | samples _ hdec hcfg x last =>
    obtain ⟨hlvl, hgap, hstart⟩ := sampleStep_opens (hdec ▸ hphase) hopen
    rw [hstart, ← hdec, ← hcfg]
    exact ⟨hlvl, hgap, rfl, rfl, rfl, rfl⟩

end Sys2Proof.Machine
end

section
/-! Proofs about the invariant (41_framer.md sections 1, 6, 10): every step keeps it, and with it the phases follow R120 and the
packets have the shape of R131 and R137. -/

namespace Sys2Proof.Machine

/-! ## The invariant apart from the line (R120, R137) -/

/-- A packet of this block as it leaves the Framer (R131): 1 to MAX_BYTES bytes, and the bits of the preamble in force and of
the bytes. -/
def Packet.framed (c : ConfigRegs) (maxBytes : Nat) (p : Packet) : Prop :=
  1 ≤ p.data.length ∧ p.data.length ≤ maxBytes ∧ p.bitCount.toNat = c.preLen.toNat + 8 * p.data.length

theorem Packet.framed.wf {c : ConfigRegs} {maxBytes : Nat} {p : Packet} (h : p.framed c maxBytes) (hpre : c.preLen.toNat ≤ 16) :
    p.wf maxBytes := by
  obtain ⟨hpos, hmax, hcount⟩ := h
  exact ⟨hpos, hmax, by omega, by omega⟩

/-- The part of the invariant that each procedure of a cycle keeps by itself: it speaks neither of the line tracker nor of a
full queue in EMIT. -/
structure FrameInv (s : State) : Prop where
  params : s.params.legal = true
  bufLength : s.buf.length = s.params.maxBytes
  nbytes : s.dec.nbytes.toNat ≤ s.params.maxBytes
  queueLength : s.queue.length ≤ s.params.outqDepth
  queueWf : ∀ p ∈ s.queue, p.wf s.params.maxBytes
  beat : beatInRange s
  preLen : s.cfg.preLen.toNat ≤ 16
  gapMin : s.cfg.gapMin ≠ 0#16
  notValidating : s.dec.phase ≠ .validating
  enabled : s.en = true → tolLegal s.cfg.tol = true ∧ s.cfgErr = false
  syncing : s.dec.phase = .syncing → s.dec.preCnt.toNat < s.cfg.preLen.toNat ∧
    s.dec.bitTotal.toNat = s.dec.preCnt.toNat ∧ s.dec.nbits = 0#4 ∧ s.dec.nbytes = 0#8
  collecting : s.dec.phase = .collecting → s.dec.nbits.toNat ≤ 7 ∧
    s.dec.bitTotal.toNat = s.cfg.preLen.toNat + 8 * s.dec.nbytes.toNat + s.dec.nbits.toNat
  pendSome : s.dec.pend ≠ none ↔ s.dec.phase = .emit
  pendFramed : ∀ p ∈ s.dec.pend, p.framed s.cfg s.params.maxBytes

theorem State.Inv.frameInv {s : State} (h : State.Inv s) : FrameInv s := { h with pendFramed := h.pendWf }

namespace FrameInv

variable {s t : State}

theorem maxBytes_le (h : FrameInv s) : s.params.maxBytes ≤ 255 := by
  have hlegal := h.params
  simp only [Params.legal, Bool.and_eq_true, decide_eq_true_eq] at hlegal
  omega

theorem setLine (h : FrameInv s) (l : Bool) (r : Half) : FrameInv (setLine l r s) := { h with }

/-- An open frame may be discarded, with whatever bits are counted (R132). -/
theorem discard (h : FrameInv s) (hemit : s.dec.phase ≠ .emit) (total : Half) (cur : Byte) (nbits : BitVec 4) (c : Counters)
    (e : Event) : FrameInv { s with
      dec := { s.dec with phase := .searching, bitTotal := total, cur := cur, nbits := nbits }, cnt := c, lastEvt := e } :=
  { h with
    notValidating := nofun
    syncing := nofun
    collecting := nofun
    pendSome := by simpa using h.pendSome.not.mpr hemit }

theorem abort (h : FrameInv s) (hemit : s.dec.phase ≠ .emit) (e : Event) : FrameInv (abort e s) :=
  h.discard hemit _ _ _ _ _

theorem startFrame (h : FrameInv s) (hphase : s.dec.phase = .searching) : FrameInv (startFrame s) := by
  have hpend : s.dec.pend = none := by simpa [hphase] using h.pendSome
  by_cases hpre : 0 < s.cfg.preLen.toNat
  · exact { h with
      nbytes := Nat.zero_le _
      notValidating := by simp [hpre]
      syncing := fun _ => ⟨hpre, rfl, rfl, rfl⟩
      collecting := by simp [hpre]
      pendSome := by simp [hpre, hpend] }
  · exact { h with
      nbytes := Nat.zero_le _
      notValidating := by simp [hpre]
      syncing := by simp [hpre]
      collecting := fun _ => ⟨Nat.zero_le _, by simp at hpre ⊢; omega⟩
      pendSome := by simp [hpre, hpend] }

theorem pushesBit {b : Bool} (h : FrameInv s) (hpush : PushesBit b s t) : FrameInv t := by
  have hpre := h.preLen
  have hmax := h.maxBytes_le
  cases hpush with
  | agrees hphase hbit hmore =>
    obtain ⟨hlt, htotal, hnbits, hnbytes⟩ := h.syncing hphase
    exact { h with
      syncing := fun _ => ⟨by simp; bv_omega, by simp; omega, hnbits, hnbytes⟩
      collecting := by simp [hphase] }
  | agreesLast hphase hbit hlast =>
    obtain ⟨hlt, htotal, hnbits, hnbytes⟩ := h.syncing hphase
    exact { h with
      notValidating := nofun
      syncing := nofun
      collecting := fun _ => ⟨by simp [hnbits], by simp [hnbits, hnbytes, ← hlast]; omega⟩
      pendSome := by simpa [hphase] using h.pendSome }
  | differs hphase hbit => exact h.discard (by simp [hphase]) _ _ _ _ _
  | appends hphase hmore =>
    obtain ⟨hnbits, htotal⟩ := h.collecting hphase
    have hnbytes := h.nbytes
    exact { h with
      syncing := by simp [hphase]
      collecting := fun _ => ⟨by simp; bv_omega, by simp; bv_omega⟩ }
  | fills hphase hlast hroom =>
    obtain ⟨hnbits, htotal⟩ := h.collecting hphase
    have hnbytes := h.nbytes
    exact { h with
      bufLength := by simpa using h.bufLength
      nbytes := by simp; omega
      syncing := by simp [hphase]
      collecting := fun _ => ⟨by simp, by simp; bv_omega⟩ }
  | overflows hphase hlast hfull => exact h.discard (by simp [hphase]) _ _ _ _ _

theorem endsInterval (h : FrameInv s) (hends : EndsInterval s t) : FrameInv t := by
  cases hends with
  | nothing => exact h
  | opens hphase => exact h.startFrame hphase
  | losesLow hopen | losesHigh hopen => exact h.abort (Phase.ne_emit_of_isOpen hopen) _
  | pushes _ _ hpush => exact h.pushesBit hpush

theorem framePacket_framed (h : FrameInv s) (hphase : s.dec.phase = .collecting) (hbits : s.dec.nbits = 0#4)
    (hbytes : s.dec.nbytes ≠ 0#8) : (framePacket s).framed s.cfg s.params.maxBytes := by
  obtain ⟨-, htotal⟩ := h.collecting hphase
  have hlen : (framePacket s).data.length = s.dec.nbytes.toNat := by
    simp [framePacket, frameBytes, h.bufLength, h.nbytes]
  refine ⟨?_, hlen ▸ h.nbytes, ?_⟩
  · rw [hlen]
    bv_omega
  · rw [hlen]
    show s.dec.bitTotal.toNat = _
    simpa [hbits] using htotal

/-- A framed packet may enter a queue with room (R160). -/
theorem push (h : FrameInv s) {p : Packet} (hp : p.framed s.cfg s.params.maxBytes)
    (hroom : s.queue.length < s.params.outqDepth) : FrameInv (push p s) :=
  { h with
    queueLength := by simpa using hroom
    queueWf := by simpa [or_imp, forall_and] using And.intro h.queueWf (hp.wf h.preLen)
    beat := by
      have hbeat := h.beat
      unfold beatInRange at hbeat ⊢
      cases hqueue : s.queue with
      | nil => simp_all
      | cons head rest => simpa [hqueue] using hbeat }

theorem reachesGap (h : FrameInv s) (hgap : ReachesGap s t) : FrameInv t := by
  cases hgap with
  | nothing => exact h
  | discards hopen => exact h.abort (Phase.ne_emit_of_isOpen hopen) _
  | queues hphase hbits hbytes hroom =>
    exact (h.push (h.framePacket_framed hphase hbits hbytes) hroom).discard (by simp [hphase]) _ _ _ _ _
  | holds hphase hbits hbytes hfull =>
    exact { h with
      notValidating := nofun
      syncing := nofun
      collecting := nofun
      pendSome := by simp
      pendFramed := by simpa using h.framePacket_framed hphase hbits hbytes }

theorem beatStep (h : FrameInv s) : FrameInv (beatStep s) := by
  unfold Machine.beatStep
  have hbeat := h.beat
  cases hqueue : s.queue with
  | nil => exact h
  | cons head rest =>
    simp only [beatInRange, hqueue] at hbeat
    have hlen := h.queueLength
    have hwf := h.queueWf
    simp only [hqueue, List.length_cons, List.forall_mem_cons] at hlen hwf
    simp only
    split
    · exact { h with
        queueLength := by simp only; omega
        queueWf := hwf.2
        beat := by
          unfold beatInRange
          cases rest with
          | nil => rfl
          | cons => exact Nat.zero_le _ }
    · obtain ⟨⟨-, hmax, -⟩, -⟩ := hwf
      have hbytes := h.maxBytes_le
      exact { h with
        queueLength := hqueue ▸ h.queueLength
        queueWf := hqueue ▸ h.queueWf
        beat := by
          simp only [beatInRange]
          bv_omega }

theorem outputStage (h : FrameInv s) (p : Inputs) (s0 : State) : FrameInv (outputStage p s0 s) :=
  onlyIf_of (P := FrameInv) _ h.beatStep h

end FrameInv

/-! ## The invariant of the line (R120, R122, R134, R199) -/

/-- The part of the invariant that ties the decoder to the line tracker and to CTRL.EN. -/
structure LineInv (s : State) : Prop where
  run : s.dec.run ≠ 0#16
  disabled : s.en = false → s.dec = Decoder.reset
  lowInFrame : s.dec.phase.isOpen = true → s.dec.lvl = false → s.dec.run.toNat < s.cfg.gapMin.toNat
  emitLow : s.dec.phase = .emit → s.dec.lvl = false ∧ s.cfg.gapMin.toNat ≤ s.dec.run.toNat

theorem State.Inv.lineInv {s : State} (h : State.Inv s) : LineInv s := { h with emitLow := fun hemit => (h.emit hemit).2 }

/-- The invariant is its two parts and the full queue of EMIT. -/
theorem State.Inv.of_parts {s : State} (h : FrameInv s) (k : LineInv s)
    (hfull : s.dec.phase = .emit → s.queue.length = s.params.outqDepth) : State.Inv s :=
  { h, k with
    pendWf := h.pendFramed
    emit := fun hemit => ⟨hfull hemit, k.emitLow hemit⟩ }

/-! ## The stages of a cycle keep the invariant -/

/-- After the EMIT retry the pending packet is queued, or the queue is full (R162). -/
theorem emitRetry_inv {s : State} (h : FrameInv s) (k : LineInv s) (hemit : s.dec.phase = .emit) : State.Inv (emitRetry s) := by
  rcases emitRetry_cases s with ⟨p, hpend, hroom, hpush⟩ | ⟨hstay, hsame⟩
  · have hclear : FrameInv { s with dec := { s.dec with phase := .searching, pend := none } } :=
      { h with
        notValidating := nofun
        syncing := nofun
        collecting := nofun
        pendSome := by simp
        pendFramed := nofun }
    have hen : s.en ≠ false := fun hen => by simp [k.disabled hen, Decoder.reset] at hemit
    rw [hpush]
    exact .of_parts (hclear.push (h.pendFramed p hpend) hroom) ⟨k.run, fun hen' => absurd hen' hen, nofun, nofun⟩ nofun
  · rw [hsame]
    exact .of_parts h k fun _ => h.queueLength.antisymm (hstay.resolve_left (h.pendSome.mpr hemit))

theorem PushesBit.phase_ne_emit {b : Bool} {s t : State} (hpush : PushesBit b s t) : t.dec.phase ≠ .emit := by
  cases hpush <;> simp [*]

theorem EndsInterval.phase_ne_emit {s t : State} (hends : EndsInterval s t) (hs : s.dec.phase ≠ .emit) :
    t.dec.phase ≠ .emit := by
  cases hends with
  | nothing => exact hs
  | opens => simp only [startFrame_dec]; split <;> simp
  | losesLow | losesHigh => simp
  | pushes _ _ hpush => exact hpush.phase_ne_emit

/-- A low run that is not at the gap yet stays short of it (R107, R122). -/
theorem nextRun_lt_gapMin {c : ConfigRegs} {lvl : Bool} {run : Half} (hgap : c.gapMin ≠ 0#16)
    (hmiss : ¬ gapHit c false (nextRun (false != lvl) run) lvl run = true)
    (hlow : lvl = false → run.toNat < c.gapMin.toNat) : (nextRun (false != lvl) run).toNat < c.gapMin.toNat := by
  obtain ⟨-, hedge, hflat⟩ := gapIsReachedOnce c run
  cases lvl with
  | true =>
    have hone : c.gapMin ≠ 1#16 := hedge.not.mp hmiss
    simp only [nextRun, Bool.false_bne, if_true]
    bv_omega
  | false =>
    have hnot := hflat.not.mp hmiss
    have hlt := hlow rfl
    simp only [nextRun, bne_self_eq_false, Bool.false_eq_true, if_false, sat16_toNat]
    omega

theorem nextRun_ne_zero (edge : Bool) (run : Half) : nextRun edge run ≠ 0#16 := by
  cases edge with
  | true => simp [nextRun]
  | false =>
    rw [ne_eq, ← BitVec.toNat_inj, nextRun, if_neg (by simp), sat16_toNat]
    simp

theorem gapHit_low {c : ConfigRegs} {v lvl : Bool} {run old : Half} (hhit : gapHit c v run lvl old = true) :
    v = false ∧ run = c.gapMin := by
  simp only [gapHit, Bool.and_eq_true, Bool.not_eq_true', beq_iff_eq] at hhit
  exact hhit.1

theorem streamEnd_inv {s : State} (h : State.Inv s) (hen : s.en = true) : State.Inv (streamEnd s) := by
  by_cases hopen : s.dec.phase.isOpen = true
  · rw [streamEnd_of_open hopen]
    have hframe := (h.frameInv.abort (Phase.ne_emit_of_isOpen hopen) .incompleteStreamEnd).setLine false 0xFFFF#16
    exact .of_parts hframe ⟨by simp, by simp [hen], nofun, nofun⟩ nofun
  · rw [streamEnd_of_not_open hopen]
    have hgap : s.cfg.gapMin.toNat ≤ 65535 := Nat.le_of_lt_succ s.cfg.gapMin.isLt
    exact { h with
      run := by simp
      disabled := by simp [hen]
      lowInFrame := fun hopen' => absurd hopen' hopen
      emit := fun hemit => ⟨(h.emit hemit).1, rfl, hgap⟩ }

/-- The sample step before the stream end (R108): the finished interval, the line tracker, the gap. -/
theorem sampleStep_eq (x : Word) (s : State) :
    sampleStep x false s =
      onlyIf (gapHit s.cfg (slice s.cfg.thresh x) (nextRun (slice s.cfg.thresh x != s.dec.lvl) s.dec.run) s.dec.lvl s.dec.run)
        gapReached (setLine (slice s.cfg.thresh x) (nextRun (slice s.cfg.thresh x != s.dec.lvl) s.dec.run)
          (onlyIf (slice s.cfg.thresh x != s.dec.lvl) edgeStep s)) := rfl

theorem endsInterval_onlyIf_edgeStep (c : Bool) (s : State) : EndsInterval s (onlyIf c edgeStep s) :=
  onlyIf_of (P := EndsInterval s) c (edgeStep_endsInterval s) .nothing

/-- A gap leaves a decoder that meets the invariant (R122, R129). -/
theorem gapReached_inv {s : State} (h : FrameInv s) (hen : s.en = true) (hphase : s.dec.phase ≠ .emit)
    (hlvl : s.dec.lvl = false) (hrun : s.dec.run = s.cfg.gapMin) : State.Inv (gapReached s) := by
  have hctrl := gapReached_sameControl s
  obtain ⟨hlvl', hrun'⟩ := gapReached_line s
  have hgap := gapReached_reachesGap s
  refine .of_parts (h.reachesGap hgap) ⟨?_, ?_, ?_, ?_⟩ ?_
  · rw [hrun', hrun]
    exact h.gapMin
  · simp [hctrl.en, hen]
  · exact fun hopen => absurd hopen (gapReached_not_open s)
  · intro _
    rw [hlvl', hrun', hctrl.cfg, hrun]
    exact ⟨hlvl, le_rfl⟩
  · intro hemit
    generalize gapReached s = t at hgap hemit
    cases hgap with
    | nothing => exact absurd hemit hphase
    | discards | queues => cases hemit
    | holds _ _ _ hfull => exact h.queueLength.antisymm hfull

theorem sampleStep_false_inv {s : State} (h : State.Inv s) (hen : s.en = true) (hphase : s.dec.phase ≠ .emit) (x : Word) :
    State.Inv (sampleStep x false s) := by
  rw [sampleStep_eq]
  set v := slice s.cfg.thresh x
  have hends := endsInterval_onlyIf_edgeStep (v != s.dec.lvl) s
  have hctrl := onlyIf_sameControl (v != s.dec.lvl) _ _ (edgeStep_sameControl s)
  have hflat : v = s.dec.lvl → onlyIf (v != s.dec.lvl) edgeStep s = s := by
    intro hv
    simp [hv]
  generalize onlyIf (v != s.dec.lvl) edgeStep s = u at hends hctrl hflat
  have hframe := (h.frameInv.endsInterval hends).setLine v (nextRun (v != s.dec.lvl) s.dec.run)
  have hne := hends.phase_ne_emit hphase
  by_cases hhit : gapHit s.cfg v (nextRun (v != s.dec.lvl) s.dec.run) s.dec.lvl s.dec.run = true
  · obtain ⟨hlow, hrun⟩ := gapHit_low hhit
    rw [hhit]
    exact gapReached_inv hframe (hctrl.en.trans hen) hne hlow (hrun.trans (congrArg ConfigRegs.gapMin hctrl.cfg.symm))
  · rw [Bool.eq_false_of_not_eq_true hhit]
    refine .of_parts hframe ⟨nextRun_ne_zero _ _, ?_, ?_, fun hemit => absurd hemit hne⟩ fun hemit => absurd hemit hne
    · simp [hctrl.en, hen]
    · intro hopen hlow
      have hv : v = false := hlow
      rw [hv] at hhit hflat ⊢
      show _ < u.cfg.gapMin.toNat
      rw [hctrl.cfg]
      refine nextRun_lt_gapMin h.gapMin hhit fun hlvl => h.lowInFrame ?_ hlvl
      exact hflat hlvl.symm ▸ hopen

theorem sampleStep_inv {s : State} (h : State.Inv s) (hs : sReady s = true) (x : Word) (last : Bool) :
    State.Inv (sampleStep x last s) := by
  obtain ⟨hen, hphase⟩ := (sReady_iff s).mp hs
  have hsample := sampleStep_false_inv h hen hphase x
  cases last with
  | false => exact hsample
  | true =>
    rw [sampleStep_last]
    exact streamEnd_inv hsample ((sampleStep_sameControl x false s).en.trans hen)

/-- The decoder may be reset, with a legal configuration that keeps CTRL.EN to legal tolerances. -/
theorem State.Inv.reset_dec {s : State} (h : State.Inv s) {c : ConfigRegs} {en ce : Bool} (hpre : c.preLen.toNat ≤ 16)
    (hgap : c.gapMin ≠ 0#16) (hen : en = true → tolLegal c.tol = true ∧ ce = false) :
    State.Inv { s with cfg := c, en := en, cfgErr := ce, dec := .reset } :=
  { resetOf_inv h.params with
    params := h.params
    bufLength := h.bufLength
    queueLength := h.queueLength
    queueWf := h.queueWf
    beat := h.beat
    preLen := hpre
    gapMin := hgap
    disabled _ := rfl
    enabled := hen
    syncing := nofun
    collecting := nofun
    lowInFrame := nofun
    pendWf := nofun
    emit := nofun }

theorem decoderReset_inv {s : State} (h : State.Inv s) : State.Inv (decoderReset s) :=
  h.reset_dec h.preLen h.gapMin h.enabled

theorem writeEn_inv {s : State} (h : State.Inv s) (req : Bool) : State.Inv (writeEn req s) := by
  unfold writeEn
  split
  · unfold enableCheck
    split
    · exact { h with
        disabled := nofun
        enabled := fun _ => ⟨‹_›, rfl⟩ }
    · rename_i henable _
      exact { h with enabled := by simp_all }
  · split
    · exact h.reset_dec (en := false) h.preLen h.gapMin nofun
    · exact h

theorem wrCtrl_inv {s : State} (h : State.Inv s) (w : Word) : State.Inv (effect (.wrCtrl w) s) := by
  have hen := writeEn_inv h (w.getLsbD 0)
  have hsoft := onlyIf_of (P := State.Inv) (w.getLsbD 1) (decoderReset_inv hen) hen
  exact onlyIf_of (P := State.Inv) (f := clearCounters) (w.getLsbD 2) { hsoft with } hsoft

theorem configWrite_inv {s : State} (h : State.Inv s) {upd : ConfigRegs → ConfigRegs} (hpre : (upd s.cfg).preLen.toNat ≤ 16)
    (hgap : (upd s.cfg).gapMin ≠ 0#16) : State.Inv (configWrite upd s) := by
  rcases configWrite_eq upd s with ⟨-, hwrite⟩ | ⟨hen, hwrite⟩
  · rw [hwrite]
    exact { h with }
  · have hreset := h.reset_dec (en := s.en) (ce := s.cfgErr) hpre hgap (by simp [hen])
    rw [hwrite]
    rw [← h.disabled hen] at hreset
    exact hreset

theorem legalPreLen_le (w : Word) : (legalPreLen w).toNat ≤ 16 := by
  unfold legalPreLen
  simp only
  split
  · assumption
  · decide

theorem legalGapMin_ne_zero (w : Word) : legalGapMin w ≠ 0#16 := by
  unfold legalGapMin
  split
  · decide
  · assumption

theorem effect_write_inv {i : Instr} (hi : stageOf i = .write) {s : State} (h : State.Inv s) : State.Inv (effect i s) := by
  cases i with
  | wrCtrl w => exact wrCtrl_inv h w
  | wrStatus w =>
    simp only [effect, exec, execWrStatus]
    split
    · exact { h with }
    · exact h
  | wrCfg w => exact configWrite_inv h (upd := legalCfg w) (legalPreLen_le w) h.gapMin
  | wrGapMin w => exact configWrite_inv h (upd := fun c => { c with gapMin := legalGapMin w }) h.preLen (legalGapMin_ne_zero w)
  | wrTol w => exact configWrite_inv h (upd := fun c => { c with tol := w }) h.preLen h.gapMin
  | wrShortNom w => exact configWrite_inv h (upd := fun c => { c with shortNom := lowHalf w }) h.preLen h.gapMin
  | wrLongNom w => exact configWrite_inv h (upd := fun c => { c with longNom := lowHalf w }) h.preLen h.gapMin
  | wrThresh w => exact configWrite_inv h (upd := fun c => { c with thresh := w }) h.preLen h.gapMin
  | wrPreamble w => exact configWrite_inv h (upd := fun c => { c with preamble := lowHalf w }) h.preLen h.gapMin
  | wrRoPktCnt | wrRoBadCnt | wrRoSynclossCnt | wrRoDiscardCnt | wrRoId | wrRsvd => exact h
  | _ => cases hi

/-- The output step, and then the EMIT retry or the sample step, keep the invariant (R200). -/
theorem decoderStages_inv {s : State} (h : State.Inv s) (p : Inputs) :
    State.Inv (decoderStages p s (outputStage p s s)) := by
  have hframe := h.frameInv.outputStage p s
  obtain ⟨q, b, hout⟩ := outputStage_eq p s s
  have hline : LineInv (outputStage p s s) := hout ▸ { h.lineInv with }
  have hphase : (outputStage p s s).dec.phase = s.dec.phase := by rw [hout]
  have hready : sReady (outputStage p s s) = sReady s := by rw [hout]; rfl
  generalize outputStage p s s = u at hframe hline hphase hready
  by_cases hemit : s.dec.phase = .emit
  · rw [decoderStages_of_emit p hemit]
    exact emitRetry_inv hframe hline (hphase.trans hemit)
  · have hu : State.Inv u := .of_parts hframe hline fun hu => absurd (hphase.symm.trans hu) hemit
    rw [decoderStages_of_not_emit p hemit]
    cases hsample : p.sValid && sReady s with
    | false => exact hu
    | true => exact sampleStep_inv hu (hready.trans (Bool.and_eq_true_iff.mp hsample).2) _ _

theorem cycleNext_inv {s : State} (h : State.Inv s) (p : Inputs) : State.Inv (cycleNext p s) := by
  by_cases hrst : p.rst = true
  · rw [cycleNext, if_pos hrst]
    exact { resetOf_inv h.params with }
  · obtain ⟨o, hstages⟩ := cycleNext_eq_stages (Bool.eq_false_of_not_eq_true hrst) s
    have hdec : State.Inv (decoderStages p s (outputStage p s (setOut o s))) :=
      decoderStages_inv (s := setOut o s) { h with } p
    rw [hstages]
    exact onlyIf_of (P := State.Inv) _ (effect_write_inv (stageOf_busWrite _ _) hdec) hdec

/-- Settles O17: each stage of the cycle keeps the parts of the invariant that it writes, and the parts make the invariant. -/
theorem stepKeepsInvariant : Obligations.StepKeepsInvariant := by
  intro s t h hstep
  obtain ⟨host, drawn, htake⟩ := takeDrive_eq s
  rw [step_eq, Host.Outcome.next.injEq, htake] at hstep
  have htaken : State.Inv { s with host := host, drawn := drawn } := { h with }
  exact hstep ▸ cycleNext_inv htaken _

/-! ## The phases (R120) -/

/-- A property of the phase that SEARCHING has, that the end of an interval brings about and a gap after it keeps, is one of the
phase after a sample (R108, R136). -/
theorem sampleStep_phase_of {P : Phase → Prop} {s : State} (hsearching : P .searching)
    (hends : ∀ t, EndsInterval s t → P t.dec.phase ∧ ∀ l r, P (gapReached (setLine l r t)).dec.phase)
    (x : Word) (last : Bool) : P (sampleStep x last s).dec.phase := by
  have hsample : P (sampleStep x false s).dec.phase := by
    obtain ⟨hedge, hgap⟩ := hends _ (endsInterval_onlyIf_edgeStep (slice s.cfg.thresh x != s.dec.lvl) s)
    rw [sampleStep_eq]
    exact onlyIf_of (P := fun t => P t.dec.phase) _ (hgap _ _) hedge
  cases last with
  | false => exact hsample
  | true =>
    rw [sampleStep_last]
    by_cases hopen : (sampleStep x false s).dec.phase.isOpen = true
    · rw [streamEnd_of_open hopen]
      exact hsearching
    · rw [streamEnd_of_not_open hopen]
      exact hsample

/-- No frame is open, or no whole byte of it has come; the decoder is not in EMIT. -/
def Decoder.noByte (d : Decoder) : Prop := d.phase ≠ .emit ∧ (d.phase.isOpen = true → d.nbytes = 0#8)

/-- One bit does not make a byte of a frame that was not in COLLECTING (R125, R127). -/
theorem EndsInterval.noByte {s t : State} (hends : EndsInterval s t) (hno : s.dec.noByte) (hphase : s.dec.phase ≠ .collecting) :
    t.dec.noByte := by
  refine ⟨hends.phase_ne_emit hno.1, fun hopen => ?_⟩
  cases hends with
  | nothing => exact hno.2 hopen
  | opens => rfl
  | losesLow | losesHigh => simp [Phase.isOpen] at hopen
  | pushes _ _ hpush =>
    cases hpush with
    | agrees hsync | agreesLast hsync => exact hno.2 (by rw [hsync]; rfl)
    | differs => simp [Phase.isOpen] at hopen
    | appends hcoll | fills hcoll | overflows hcoll => exact absurd hcoll hphase

/-- A frame without a whole byte does not reach EMIT (R129). -/
theorem gapReached_ne_emit {s : State} (hno : s.dec.noByte) : (gapReached s).dec.phase ≠ .emit := by
  have hgap := gapReached_reachesGap s
  generalize gapReached s = t at hgap ⊢
  cases hgap with
  | nothing => exact hno.1
  | discards | queues => simp
  | holds hphase _ hbytes => exact absurd (hno.2 (by rw [hphase]; rfl)) hbytes

theorem EndsInterval.ne_syncing {s t : State} (hends : EndsInterval s t) (hphase : s.dec.phase = .collecting) :
    t.dec.phase ≠ .syncing := by
  cases hends with
  | nothing => simp [hphase]
  | opens hsearch => simp [hphase] at hsearch
  | losesLow | losesHigh => simp
  | pushes _ _ hpush => cases hpush <;> simp_all

theorem gapReached_ne_syncing (s : State) : (gapReached s).dec.phase ≠ .syncing :=
  fun hsync => gapReached_not_open s (by rw [hsync]; rfl)

namespace DecoderStep

variable {c : ConfigRegs} {d d' : Decoder}

/-- EMIT is entered from COLLECTING only. -/
theorem ne_emit (h : DecoderStep c d d') (hno : d.noByte) (hphase : d.phase ≠ .collecting) : d'.phase ≠ .emit := by
  cases h with
  | resets => simp [Decoder.reset]
  | keeps => exact hno.1
  | retries hemit => exact absurd hemit hno.1
  | samples _ hdec _ x last =>
    subst hdec
    exact sampleStep_phase_of (P := (· ≠ .emit)) (by simp) (fun t hends => ⟨hends.phase_ne_emit hno.1,
      fun l r => gapReached_ne_emit (s := setLine l r t) (hends.noByte hno hphase)⟩) x last

/-- SYNCING is not entered from COLLECTING. -/
theorem ne_syncing (h : DecoderStep c d d') (hphase : d.phase = .collecting) : d'.phase ≠ .syncing := by
  cases h with
  | resets => simp [Decoder.reset]
  | keeps => simp [hphase]
  | retries hemit => simp [hphase] at hemit
  | samples _ hdec _ x last =>
    subst hdec
    exact sampleStep_phase_of (P := (· ≠ .syncing)) (by simp)
      (fun t hends => ⟨hends.ne_syncing hphase, fun l r => gapReached_ne_syncing _⟩) x last

/-- EMIT is left for SEARCHING only (R162). -/
theorem of_emit (h : DecoderStep c d d') (hphase : d.phase = .emit) : d'.phase = .searching ∨ d'.phase = .emit := by
  cases h with
  | resets => exact .inl rfl
  | keeps => exact .inr hphase
  | @retries hemit s hdec =>
    subst hdec
    rcases emitRetry_cases s with ⟨p, -, -, hpush⟩ | ⟨-, hsame⟩
    · exact .inl (by rw [hpush]; rfl)
    · exact .inr (by rw [hsame, hemit])
  | samples hne => exact absurd hphase hne

end DecoderStep

/-- Settles O46: the invariant excludes VALIDATING, and from each phase the step excludes what else R120 has no arrow to. -/
theorem phaseTransitions : Obligations.PhaseTransitions := by
  intro s t h hstep
  have hvalid := (stepKeepsInvariant s t h hstep).notValidating
  have hdec := step_decoderStep hstep
  have hmem (hphase : s.dec.phase = .searching ∨ s.dec.phase = .syncing) :
      t.dec.phase ∈ [Phase.searching, .syncing, .collecting] := by
    have hno : s.dec.noByte := by
      rcases hphase with hphase | hphase
      · exact ⟨by simp [hphase], by simp [hphase, Phase.isOpen]⟩
      · obtain ⟨-, -, -, hbytes⟩ := h.syncing hphase
        exact ⟨by simp [hphase], fun _ => hbytes⟩
    have hne := hdec.ne_emit hno (by rcases hphase with hphase | hphase <;> simp [hphase])
    cases hp : t.dec.phase <;> simp_all
  refine ⟨fun hphase => hmem (.inl hphase), fun hphase => hmem (.inr hphase), fun hphase => ?_, fun hphase => ?_⟩
  · have hne := hdec.ne_syncing hphase
    cases hp : t.dec.phase <;> simp_all
  · rcases hdec.of_emit hphase with hp | hp <;> simp [hp]

/-! ## The packets a cycle adds (R131, R137) -/

/-- From `s` to `t` at most one packet has entered the queue, framed under the configuration of `s`. -/
def AddsFramed (s t : State) : Prop :=
  ∃ new : List Packet, new.length ≤ 1 ∧ t.queue = s.queue ++ new ∧ ∀ p ∈ new, p.framed s.cfg s.params.maxBytes

namespace AddsFramed

variable {s t u : State}

theorem of_eq (hqueue : t.queue = s.queue) : AddsFramed s t := ⟨[], Nat.zero_le 1, by simp [hqueue], by simp⟩

theorem of_append {p : Packet} (hqueue : t.queue = s.queue ++ [p]) (hp : p.framed s.cfg s.params.maxBytes) : AddsFramed s t :=
  ⟨[p], le_rfl, hqueue, by simpa using hp⟩

theorem after (h : AddsFramed t u) (hctrl : SameControl s t) (hqueue : t.queue = s.queue) : AddsFramed s u := by
  obtain ⟨new, hlen, hnew, hframed⟩ := h
  exact ⟨new, hlen, hnew.trans (by rw [hqueue]), hctrl.cfg ▸ hctrl.params ▸ hframed⟩

theorem before (h : AddsFramed s t) (hqueue : u.queue = t.queue) : AddsFramed s u := by
  obtain ⟨new, hlen, hnew, hframed⟩ := h
  exact ⟨new, hlen, hqueue.trans hnew, hframed⟩

theorem onlyIf {f : State → State} (h : AddsFramed s (f s)) (c : Bool) : AddsFramed s (onlyIf c f s) :=
  onlyIf_of (P := AddsFramed s) c h (of_eq rfl)

end AddsFramed

theorem gapReached_addsFramed {s : State} (h : FrameInv s) : AddsFramed s (gapReached s) := by
  have hgap := gapReached_reachesGap s
  generalize gapReached s = t at hgap ⊢
  cases hgap with
  | nothing | discards | holds => exact .of_eq rfl
  | queues hphase hbits hbytes => exact .of_append rfl (h.framePacket_framed hphase hbits hbytes)

theorem emitRetry_addsFramed {s : State} (h : FrameInv s) : AddsFramed s (emitRetry s) := by
  rcases emitRetry_cases s with ⟨p, hpend, -, hpush⟩ | ⟨-, hsame⟩
  · exact .of_append (by rw [hpush]; rfl) (h.pendFramed p hpend)
  · exact .of_eq (by rw [hsame])

/-- In the sample step only the gap adds a packet (R108, R129). -/
theorem sampleStep_addsFramed {s : State} (h : FrameInv s) (x : Word) (last : Bool) : AddsFramed s (sampleStep x last s) := by
  have hgap (edge c v : Bool) (r : Half) :
      AddsFramed s (onlyIf c gapReached (setLine v r (onlyIf edge edgeStep s))) := by
    have hframe := (h.endsInterval (endsInterval_onlyIf_edgeStep edge s)).setLine v r
    have hctrl := (onlyIf_sameControl edge _ _ (edgeStep_sameControl s)).trans (setLine_sameControl v r _)
    have hqueue : (onlyIf edge edgeStep s).queue = s.queue := by simpa using ((edgeStep_enqueues s).onlyIf edge).queue
    exact ((gapReached_addsFramed hframe).onlyIf c).after hctrl hqueue
  cases last with
  | false => exact hgap _ _ _ _
  | true =>
    rw [sampleStep_last]
    refine AddsFramed.before (t := sampleStep x false s) (hgap _ _ _ _) ?_
    simpa using (streamEnd_enqueues (sampleStep x false s)).queue

theorem decoderStages_addsFramed (p : Inputs) (s0 : State) {s : State} (h : FrameInv s) :
    AddsFramed s (decoderStages p s0 s) := by
  by_cases hemit : s0.dec.phase = .emit
  · rw [decoderStages_of_emit p hemit]
    exact emitRetry_addsFramed h
  · rw [decoderStages_of_not_emit p hemit]
    exact (sampleStep_addsFramed h _ _).onlyIf _

/-- The output step leaves the queue or the queue without its head. -/
theorem outputStage_queue_drop (p : Inputs) (s0 s : State) :
    (outputStage p s0 s).queue = s.queue ∨ (outputStage p s0 s).queue = s.queue.drop 1 := by
  refine (outputStage_queue p s0 s).imp_right ?_
  rintro ⟨-, head, rest, hqueue, -, hrest, -⟩
  rw [hrest, hqueue, List.drop_one, List.tail_cons]

theorem cycleNext_params (p : Inputs) (s : State) : (cycleNext p s).params = s.params := by
  by_cases hrst : p.rst = true
  · rw [cycleNext, if_pos hrst]
    rfl
  · obtain ⟨o, hstages⟩ := cycleNext_eq_stages (Bool.eq_false_of_not_eq_true hrst) s
    obtain ⟨q, b, hout⟩ := outputStage_eq p s (setOut o s)
    have hdec := (decoderStages_sameControl p s (outputStage p s (setOut o s))).params
    obtain ⟨_, _, _, _, _, _, _, hwrite⟩ := effect_of_write (stageOf_busWrite p.regAddr p.regWdata)
      (decoderStages p s (outputStage p s (setOut o s)))
    have hparams : (outputStage p s (setOut o s)).params = s.params := by rw [hout]; rfl
    rw [hstages]
    exact onlyIf_of (P := fun t => t.params = s.params) _ (by rw [hwrite]; exact hdec.trans hparams) (hdec.trans hparams)

/-- Settles O50: the decoder's steps add at most one packet, and by the invariant it is framed. -/
theorem emittedPacketShape : Obligations.EmittedPacketShape := by
  intro s t p h hrst ht
  have hinv := cycleNext_inv h p
  obtain ⟨o, hstages⟩ := cycleNext_eq_stages hrst s
  rw [cycle_eq, Host.Outcome.next.injEq] at ht
  have hstart : FrameInv (setOut o s) := { h.frameInv with }
  have hframe := hstart.outputStage p s
  obtain ⟨new, hlen, hnew, hframed⟩ := decoderStages_addsFramed p s hframe
  obtain ⟨hqueue, -⟩ := writeStage_queue_beat p (decoderStages p s (outputStage p s (setOut o s)))
  obtain ⟨q, b, hout⟩ := outputStage_eq p s (setOut o s)
  have hdrop := outputStage_queue_drop p s (setOut o s)
  rw [← hstages, ht, hnew] at hqueue
  refine ⟨new, hlen, ?_, ?_, ?_⟩
  · rw [hqueue]
    exact hdrop.imp (congrArg (· ++ new)) (congrArg (· ++ new))
  · rw [← cycleNext_params p s, ← ht]
    exact hinv.queueLength
  · rw [hout] at hframed
    exact hframed

end Sys2Proof.Machine
end

section
/-! Proofs about the Validator (42_validator.md): what each check mode asks of a frame's bytes and its trailer, and the residue and
the linearity of the CRC. -/

namespace Sys2Proof.Machine

/-! ## The dispatch -/

theorem CheckMode.ofCode_code (m : CheckMode) : CheckMode.ofCode m.code = m := by cases m <;> rfl

theorem CheckMode.code_ofCode (b : BitVec 2) : (CheckMode.ofCode b).code = b := by revert b; decide

theorem CheckMode.eq_ofCode_of_code_eq {m : CheckMode} {b : BitVec 2} (h : m.code = b) : m = CheckMode.ofCode b := by
  rw [← h, CheckMode.ofCode_code]

theorem trailer_concat (d : List Byte) (c : Byte) : trailer (d ++ [c]) = c := by
  rw [trailer, List.getLastD_concat]

/-! ## SUM8 and XOR8 -/

theorem toNat_foldl_add (d : List Byte) (a : Byte) :
    (d.foldl (· + ·) a).toNat = (a.toNat + (d.map BitVec.toNat).sum) % 256 := by
  induction d generalizing a with
  | nil => exact (Nat.mod_eq_of_lt a.isLt).symm
  | cons x d ih =>
    rw [List.foldl_cons, ih, BitVec.toNat_add, List.map_cons, List.sum_cons]
    omega

theorem toNat_sum8 (d : List Byte) : (sum8 d).toNat = (d.map BitVec.toNat).sum % 256 := by
  rw [sum8, toNat_foldl_add, BitVec.toNat_zero, Nat.zero_add]

theorem xor8_concat (d : List Byte) (c : Byte) : xor8 (d ++ [c]) = xor8 d ^^^ c := by
  rw [xor8, List.foldl_concat, xor8]

/-! ## What each mode asks of a frame with trailer `c` -/

theorem validCheck_sum8_concat (d : List Byte) (c : Byte) :
    validCheck .sum8 (d ++ [c]) = true ↔ (d.map BitVec.toNat).sum % 256 = c.toNat := by
  rw [validCheck, checkSum8, trailer_concat, List.dropLast_concat, beq_iff_eq, ← toNat_sum8, BitVec.toNat_inj]

theorem validCheck_xor8_concat (d : List Byte) (c : Byte) : validCheck .xor8 (d ++ [c]) = true ↔ xor8 d = c := by
  rw [validCheck, checkXor8, trailer_concat, List.dropLast_concat, beq_iff_eq]

theorem validCheck_crc8_concat (d : List Byte) (c : Byte) : validCheck .crc8 (d ++ [c]) = true ↔ crc8 d = c := by
  rw [validCheck, checkCrc8, trailer_concat, List.dropLast_concat, beq_iff_eq]

theorem validCheck_xor8_concat_iff_residue (d : List Byte) (c : Byte) :
    validCheck .xor8 (d ++ [c]) = true ↔ xor8 (d ++ [c]) = 0#8 := by
  rw [validCheck_xor8_concat, xor8_concat, BitVec.xor_eq_zero_iff]

theorem validCheck_two_zero_bytes (m : CheckMode) : validCheck m [0x00#8, 0x00#8] = true := by
  cases m <;> decide

/-- Settles O56: each code is that of one mode, and each mode is its check of the bytes before the trailer. -/
theorem checksumTrailer : Obligations.ChecksumTrailer := by
  refine ⟨fun m d c => ⟨fun h => ?_, fun h => ?_, fun h => ?_, fun h => ?_⟩, CheckMode.code_ofCode,
    validCheck_two_zero_bytes, fun d c => ⟨rfl, validCheck_sum8_concat d c, validCheck_xor8_concat_iff_residue d c,
      validCheck_crc8_concat d c⟩⟩
  all_goals rw [CheckMode.eq_ofCode_of_code_eq h]
  · rfl
  · exact validCheck_sum8_concat d c
  · exact validCheck_xor8_concat d c
  · exact validCheck_crc8_concat d c

/-! ## CRC8 -/

/-- A bit step is linear: the shift is, and the polynomial is added once for each operand whose top bit is set. -/
theorem crc8Bit_xor (a b : Byte) : crc8Bit (a ^^^ b) = crc8Bit a ^^^ crc8Bit b := by
  unfold crc8Bit
  rw [BitVec.getLsbD_xor, BitVec.shiftLeft_xor_distrib]
  cases a.getLsbD 7 <;> cases b.getLsbD 7
  · rfl
  · exact BitVec.xor_assoc ..
  · simp only [Bool.xor_false, if_true, Bool.false_eq_true, if_false]
    ac_rfl
  · simp only [Bool.xor_self, if_true, Bool.false_eq_true, if_false]
    rw [BitVec.xor_assoc, BitVec.xor_comm 7#8, BitVec.xor_assoc, BitVec.xor_self, BitVec.xor_zero]

/-- The polynomial's low bit records the bit shifted out. -/
theorem getLsbD_zero_crc8Bit (c : Byte) : (crc8Bit c).getLsbD 0 = c.getLsbD 7 := by
  unfold crc8Bit
  cases c.getLsbD 7 <;> simp

/-- A bit step loses nothing: a result of 0 means that the top bit was 0, and so were the bits that were only shifted. -/
theorem crc8Bit_eq_zero_iff (c : Byte) : crc8Bit c = 0#8 ↔ c = 0#8 := by
  refine ⟨fun h => ?_, fun h => by rw [h]; rfl⟩
  have htop : c.getLsbD 7 = false := by rw [← getLsbD_zero_crc8Bit, h]; rfl
  have hshift : c <<< 1 = 0#8 := by rwa [crc8Bit, htop, if_neg Bool.false_ne_true] at h
  have hlt : 2 * c.toNat < 2 ^ 8 := BitVec.msb_eq_false_iff_two_mul_lt.mp htop
  bv_omega

theorem crc8Byte_xor (a b x y : Byte) : crc8Byte (a ^^^ b) (x ^^^ y) = crc8Byte a x ^^^ crc8Byte b y := by
  have hswap : (a ^^^ b) ^^^ (x ^^^ y) = (a ^^^ x) ^^^ (b ^^^ y) := by ac_rfl
  simp only [crc8Byte, hswap, crc8Bit_xor]

theorem crc8Byte_eq_zero_iff (c y : Byte) : crc8Byte c y = 0#8 ↔ c = y := by
  simp only [crc8Byte, crc8Bit_eq_zero_iff, BitVec.xor_eq_zero_iff]

theorem crc8_concat (d : List Byte) (c : Byte) : crc8 (d ++ [c]) = crc8Byte (crc8 d) c := by
  rw [crc8, List.foldl_concat, crc8]

theorem validCheck_crc8_iff_residue {d : List Byte} (hd : d ≠ []) : validCheck .crc8 d = true ↔ crc8 d = 0#8 := by
  rw [← List.dropLast_concat_getLast hd, validCheck_crc8_concat, crc8_concat, crc8Byte_eq_zero_iff]

/-- The CRC is linear from any two initial values. -/
theorem foldl_crc8Byte_xor {d e : List Byte} (h : d.length = e.length) (a b : Byte) :
    (List.zipWith (· ^^^ ·) d e).foldl crc8Byte (a ^^^ b) = d.foldl crc8Byte a ^^^ e.foldl crc8Byte b := by
  induction d generalizing e a b with
  | nil => rw [List.length_eq_zero_iff.mp h.symm]; rfl
  | cons x d ih =>
    obtain ⟨y, e, rfl⟩ := List.exists_cons_of_length_eq_add_one h.symm
    rw [List.zipWith_cons_cons, List.foldl_cons, crc8Byte_xor, ih (Nat.succ.inj h), List.foldl_cons, List.foldl_cons]

/-- Settles O57: a byte step answers 0 exactly when the trailer is the CRC so far, and every step is linear. -/
theorem crcOfPassingFrameIsZero : Obligations.CrcOfPassingFrameIsZero := by
  refine ⟨fun d => validCheck_crc8_iff_residue, fun d e h => foldl_crc8Byte_xor h 0#8 0#8, ?_, ?_⟩ <;>
  simp [crc8, crc8Byte, crc8Bit]

end Sys2Proof.Machine
end

section
/-! Proofs about the Emitter's output port (43_emitter.md): the output step, what it leaves to the EMIT retry, and the beats of a
packet. -/

namespace Sys2Proof.Machine

/-! ## The output step (R166) -/

theorem beatStep_of_empty {s : State} (hqueue : s.queue = []) : beatStep s = s := by simp [beatStep, hqueue]

theorem beatStep_of_last {s : State} {h : Packet} {rest : List Packet} (hqueue : s.queue = h :: rest)
    (hlast : s.beat.toNat = h.data.length) : beatStep s = { s with queue := rest, beat := 0#8 } := by
  simp [beatStep, hqueue, hlast]

theorem beatStep_of_not_last {s : State} {h : Packet} {rest : List Packet} (hqueue : s.queue = h :: rest)
    (hmore : s.beat.toNat ≠ h.data.length) : beatStep s = { s with beat := s.beat + 1#8 } := by
  simp [beatStep, hqueue, hmore]

/-- Settles O51, by the branches of the output step. -/
theorem beatStepEffect : Obligations.BeatStepEffect := by
  intro s
  have hexec : exec .beat s = .next (beatStep s) := rfl
  refine ⟨fun hempty => ?_, fun h rest hqueue => ⟨fun hlast => ?_, fun hmore hroom => ⟨s.beat + 1#8, ?_, ?_⟩⟩⟩
  · rw [hexec, beatStep_of_empty hempty]
  · rw [hexec, beatStep_of_last hqueue hlast]
  · bv_omega
  · rw [hexec, beatStep_of_not_last hqueue (Nat.ne_of_lt hmore)]

/-! ## The stages of a cycle with or without a beat, a sample, a write (R200) -/

/-- A beat is transferred iff `m_ready = 1`, for with an empty queue there is nothing to transfer (R73, R166). -/
theorem outputStage_setOut (p : Inputs) (o : Outputs) (s : State) :
    outputStage p s (setOut o s) = setOut o (onlyIf p.mReady beatStep s) := by
  have hcomm : outputStage p s (setOut o s) = setOut o (outputStage p s s) := outputStage_ignoresOut p s o s
  rw [hcomm, outputStage]
  cases hqueue : s.queue with
  | nil => cases p.mReady <;> simp [mValid, hqueue, beatStep_of_empty hqueue]
  | cons h rest => simp [mValid, hqueue]

/-- Without an accepted sample the decoder does nothing, unless it is in EMIT and finds room (R162, R200). -/
theorem decoderStages_of_no_sample {p : Inputs} {s0 s : State} (hsample : (p.sValid && sReady s0) = false)
    (hstay : s0.dec.phase ≠ .emit ∨ s.params.outqDepth ≤ s.queue.length) : decoderStages p s0 s = s := by
  by_cases hemit : s0.dec.phase = .emit
  · rw [decoderStages_of_emit p hemit]
    obtain ⟨-, -, hroom, -⟩ | ⟨-, hkeep⟩ := emitRetry_cases s
    · exact absurd hroom (Nat.not_lt.mpr (hstay.resolve_left (not_not_intro hemit)))
    · exact hkeep
  · rw [decoderStages_of_not_emit p hemit, hsample, onlyIf_false]

theorem writeStage_of_no_write {p : Inputs} (hwrite : p.regSel = false ∨ p.regWr = false) (s : State) :
    writeStage p s = s := by
  rw [writeStage, Bool.and_eq_false_iff.mpr hwrite, onlyIf_false]

/-- A cycle without `rst`: the output step, which `m_ready` alone decides, then the decoder and the register write. -/
theorem cycleNext_of_output {p : Inputs} (hrst : p.rst = false) (s : State) :
    ∃ o, cycleNext p s = writeStage p (decoderStages p s (setOut o (onlyIf p.mReady beatStep s))) := by
  obtain ⟨o, hstages⟩ := cycleNext_eq_stages hrst s
  exact ⟨o, by rw [hstages, outputStage_setOut]⟩

/-- Settles O59: without a sample the decoder's stages do nothing, and a register write touches neither field. -/
theorem transmissionIsIndependent : Obligations.TransmissionIsIndependent := by
  intro s t p hrst hphase hidle hcycle
  rw [cycle_eq, Host.Outcome.next.injEq] at hcycle
  obtain ⟨o, hstages⟩ := cycleNext_of_output hrst s
  have hsample : (p.sValid && sReady s) = false := by
    obtain hvalid | hen := hidle
    · simp [hvalid]
    · simp [sReady, hen]
  rw [hstages, decoderStages_of_no_sample hsample (.inl hphase)] at hcycle
  obtain ⟨hqueue, hbeat⟩ := writeStage_queue_beat p (setOut o (onlyIf p.mReady beatStep s))
  rw [← hcycle, hqueue, hbeat]
  cases p.mReady <;> exact ⟨rfl, rfl⟩

/-! ## EMIT (R161, R162) -/

/-- Settles O52: the output step moves the beat index alone, so the retry finds the queue as full as before. -/
theorem emitStallsTheSamplePort : Obligations.EmitStallsTheSamplePort := by
  intro s t p h rest hemit hqueue hfull hmore hrst hwrite hcycle
  rw [cycle_eq, Host.Outcome.next.injEq] at hcycle
  obtain ⟨o, hstages⟩ := cycleNext_of_output hrst s
  have hready : sReady s = false := by simp [sReady, hemit]
  have hout : ∃ b, onlyIf p.mReady beatStep s = { s with beat := b } := by
    cases hm : p.mReady with
    | false => exact ⟨s.beat, rfl⟩
    | true => exact ⟨_, beatStep_of_not_last hqueue (hmore.resolve_left (by simp [hm]))⟩
  obtain ⟨b, hbeat⟩ := hout
  have hnext : cycleNext p s = setOut o { s with beat := b } := by
    rw [hstages, writeStage_of_no_write hwrite, hbeat,
      decoderStages_of_no_sample (by rw [hready, Bool.and_false]) (.inr ?_)]
    exact hfull
  have hport : (cycleNext p s).out.sReady = false := by
    obtain ⟨v, hsignals⟩ := cycleNext_out_eq p s
    rw [hsignals]
    exact (stateOutputs_sReady s).trans hready
  rw [hnext] at hport
  rw [← hcycle, hnext]
  exact ⟨rfl, rfl, rfl, rfl, hport⟩

theorem emitRetry_of_room {s : State} {q : Packet} (hpend : s.dec.pend = some q)
    (hroom : s.queue.length < s.params.outqDepth) :
    emitRetry s = push q { s with dec := { s.dec with phase := .searching, pend := none } } := by
  simp [emitRetry, hpend, outqRoom, hroom]

/-- Settles O53: the last beat makes the room that the retry of the same cycle finds. -/
theorem emitRetryPushesPending : Obligations.EmitRetryPushesPending := by
  intro s t p h q rest hemit hpend hqueue hroom hlast hready hrst hsel hcycle
  rw [cycle_eq, Host.Outcome.next.injEq] at hcycle
  obtain ⟨o, hstages⟩ := cycleNext_of_output hrst s
  have hpush := emitRetry_of_room (s := setOut o { s with queue := rest, beat := 0#8 }) hpend hroom
  rw [hstages, writeStage_of_no_write (.inl hsel), decoderStages_of_emit p hemit, hready, onlyIf_true,
    beatStep_of_last hqueue hlast, hpush] at hcycle
  subst hcycle
  exact ⟨rfl, rfl, rfl, rfl, rfl, fun hen => (stateOutputs_sReady _).trans ((sReady_iff _).mpr ⟨hen, by simp⟩)⟩

/-! ## The beats of a packet (R164, R165) -/

/-- The drive of `POP` (R82): the host takes a beat and does nothing else. -/
def popDrive : Drive := { inputs := { Inputs.idle with mReady := true }, hold := false }

theorem drives_pop : Action.pop.drives = [popDrive] := rfl

/-- The state with other output signals and another schedule, about to transmit beat `b`. -/
def atBeat (b : Byte) (o : Outputs) (later : List Drive) (s : State) : State := { s with beat := b, out := o, host := later }

/-- A cycle that only takes a beat is the output step alone, unless the decoder is in EMIT and finds room. -/
theorem cycleNext_pop {s : State}
    (hstay : s.dec.phase ≠ .emit ∨ (beatStep s).params.outqDepth ≤ (beatStep s).queue.length) :
    cycleNext popDrive.inputs s = setOut (stateOutputs s) (beatStep s) := by
  have hstages : cycleNext popDrive.inputs s =
      decoderStages popDrive.inputs s (outputStage popDrive.inputs s (setOut (stateOutputs s) s)) :=
    cycleNext_of_no_write rfl rfl s
  rw [hstages, outputStage_setOut]
  exact decoderStages_of_no_sample rfl hstay

theorem step_pop {b : Byte} {o : Outputs} {later : List Drive} {s : State}
    (hstay : s.dec.phase ≠ .emit ∨
      (beatStep (atBeat b o later s)).params.outqDepth ≤ (beatStep (atBeat b o later s)).queue.length) :
    step (atBeat b o (popDrive :: later) s) =
      .next (setOut (stateOutputs (atBeat b o later s)) (beatStep (atBeat b o later s))) :=
  (step_eq _).trans (congrArg Host.Outcome.next (cycleNext_pop hstay))

/-- A `POP` before the head's last beat advances the beat index, in EMIT if the queue is full. -/
theorem step_pop_of_not_last {b : Byte} (o : Outputs) (later : List Drive) {s : State} {h : Packet} {rest : List Packet}
    (hstay : s.dec.phase ≠ .emit ∨ s.params.outqDepth ≤ s.queue.length) (hqueue : s.queue = h :: rest)
    (hmore : b.toNat ≠ h.data.length) :
    ∃ o', step (atBeat b o (popDrive :: later) s) = .next (atBeat (b + 1#8) o' later s) := by
  have hbeat : beatStep (atBeat b o later s) = atBeat (b + 1#8) o later s := beatStep_of_not_last hqueue hmore
  refine ⟨stateOutputs (atBeat b o later s), ?_⟩
  rw [step_pop (by rw [hbeat]; exact hstay), hbeat]
  rfl

/-- `POP`s that do not take the head's last beat advance the beat index, in EMIT as long as the queue is full. -/
theorem runCycles_pops (n : Nat) {b : Byte} (o : Outputs) (later : List Drive) {s : State} {h : Packet} {rest : List Packet}
    (hstay : s.dec.phase ≠ .emit ∨ s.params.outqDepth ≤ s.queue.length) (hqueue : s.queue = h :: rest)
    (hmore : b.toNat + n ≤ h.data.length) (hlen : h.data.length ≤ 255) :
    ∃ b' o', b'.toNat = b.toNat + n ∧
      runCycles n (atBeat b o (List.replicate n popDrive ++ later) s) = .next (atBeat b' o' later s) := by
  induction n generalizing b o with
  | zero => exact ⟨b, o, rfl, rfl⟩
  | succ n ih =>
    obtain ⟨o₁, hstep⟩ := step_pop_of_not_last o (List.replicate n popDrive ++ later) hstay hqueue
      (show b.toNat ≠ h.data.length by omega)
    have hnext : (b + 1#8).toNat = b.toNat + 1 := by bv_omega
    obtain ⟨b', o', hb', hrun⟩ := ih (b := b + 1#8) o₁ (by omega)
    refine ⟨b', o', by omega, ?_⟩
    rw [List.replicate_succ, List.cons_append, runCycles, hstep, andThen_next, hrun]

theorem getElem?_packetBeats {p : Packet} {k : Nat} (hk : k ≤ p.data.length) :
    (packetBeats p)[k]? = some (beatWord p k) := by
  simp [packetBeats, List.getElem?_range (Nat.lt_succ_of_le hk)]

/-- Settles O55: the first `k` cycles take the beats before beat `k`, and the next one shows it and takes it. -/
theorem packetLeavesInOrder : Obligations.PacketLeavesInOrder := by
  intro k s h rest later hphase hqueue hzero hk hlen hhost
  have hstart : s = atBeat 0#8 s.out (List.replicate k popDrive ++ popDrive :: later) s := by
    have hsplit : s.host = List.replicate k popDrive ++ popDrive :: later := by
      rw [hhost, List.replicate_succ', List.append_assoc]
      rfl
    rw [← hsplit, ← hzero]
    rfl
  obtain ⟨b, o, hb, hrun⟩ := runCycles_pops k (b := 0#8) s.out (popDrive :: later) (.inl hphase) hqueue
    ((Nat.zero_add k).trans_le hk) hlen
  have hbk : b.toNat = k := hb.trans (Nat.zero_add k)
  have hsignals := stateOutputs_of_head (s := atBeat b o later s) hqueue
  have hstep := step_pop (b := b) (o := o) (later := later) (.inl hphase)
  rw [hsignals] at hstep
  refine ⟨_, by rw [hstart, runCycles_add, hrun, andThen_next, runCycles, hstep]; rfl, rfl, ?_, ?_, ?_, fun hlast => ?_⟩
  · rw [getElem?_packetBeats hk, ← hbk]
    rfl
  · show (b == 0#8) = true ↔ k = 0
    rw [beq_iff_eq, ← hbk, ← BitVec.toNat_inj]
    rfl
  · show (b.toNat == h.data.length) = true ↔ _
    rw [beq_iff_eq, hbk]
  · have hpop := beatStep_of_last (s := atBeat b o later s) hqueue (hbk.trans hlast)
    rw [hpop]
    rfl

end Sys2Proof.Machine
end

section
/-! Proofs about the register operations (44_register_ops.md): the reads, the writes of status, configuration and control, and
their place in the order of a cycle. -/

namespace Sys2Proof.Machine

/-! ## Register reads (R183 to R207) -/

theorem eq_effect_of_exec {i : Instr} {s t : State} (h : exec i s = .next t) : t = effect i s := by
  rw [exec_eq_effect, Host.Outcome.next.injEq] at h
  exact h.symm

/-- CTRL reads EN in bit 0 (R183). -/
theorem ctrlWord_eq_ite (s : State) : ctrlWord s = if s.en then 1#32 else 0#32 := by
  unfold ctrlWord
  cases s.en <;> rfl

/-- The one-bit fields of STATUS (R184). -/
theorem statusWord_flags (s : State) :
    (statusWord s).getLsbD 3 = s.cfgErr ∧ (statusWord s).getLsbD 4 = s.werr ∧ (statusWord s).getLsbD 5 = s.dec.lvl ∧
      (statusWord s).getLsbD 12 = outqFull s := by
  simp only [statusWord, BitVec.getLsbD_append]
  simp

/-- The wider fields of STATUS, each found above the fields below it (R184). -/
theorem statusWord_fields (s : State) :
    (statusWord s).extractLsb' 0 3 = s.dec.phase.code ∧ (statusWord s).extractLsb' 6 2 = 0#2 ∧
      (statusWord s).extractLsb' 8 4 = BitVec.ofNat 4 s.queue.length ∧ (statusWord s).extractLsb' 13 3 = 0#3 ∧
      (statusWord s).extractLsb' 16 4 = s.lastEvt.code ∧ (statusWord s).extractLsb' 20 12 = 0#12 := by
  unfold statusWord
  and_intros <;> repeat rw [BitVec.extractLsb'_append_eq_of_le (by decide)]
  any_goals exact BitVec.extractLsb'_append_eq_right
  exact BitVec.extractLsb'_eq_self

/-- The fields of CFG (R185). -/
theorem cfgWord_fields (s : State) :
    (cfgWord s).getLsbD 0 = s.cfg.bitpol ∧ (cfgWord s).extractLsb' 1 2 = s.cfg.checkMode.code ∧
      (cfgWord s).extractLsb' 3 5 = 0#5 ∧ (cfgWord s).extractLsb' 8 5 = s.cfg.preLen ∧
      (cfgWord s).extractLsb' 13 19 = 0#19 := by
  unfold cfgWord
  refine ⟨?_, ?_⟩
  · simp only [BitVec.getLsbD_append]
    simp
  · and_intros <;> repeat rw [BitVec.extractLsb'_append_eq_of_le (by decide)]
    any_goals exact BitVec.extractLsb'_append_eq_right
    exact BitVec.extractLsb'_eq_self

/-- Settles O20: each word read is a row of fields, and the codes are a table. -/
theorem readControlStatusAndCfg : Obligations.ReadControlStatusAndCfg := by
  refine ⟨fun s => ?_, fun s => ⟨statusWord s, rfl, ?_⟩, fun s => ⟨cfgWord s, rfl, cfgWord_fields s⟩,
    fun t => ⟨fun h => ?_, fun h => ?_⟩, by decide, by decide, by decide⟩
  · rw [← ctrlWord_eq_ite]
    rfl
  · obtain ⟨hcfgErr, hwerr, hlvl, hfull⟩ := statusWord_flags s
    obtain ⟨hphase, hlow, hcount, hmid, hevt, hhigh⟩ := statusWord_fields s
    exact ⟨hphase, hcfgErr, hwerr, hlvl, hlow, hcount, by rw [hfull, outqFull, beq_iff_eq], hmid, hevt, hhigh⟩
  · rw [eq_effect_of_exec h]
    rfl
  · rw [eq_effect_of_exec h]
    rfl

theorem zext32_eq_ofNat (h : Half) : zext32 h = BitVec.ofNat 32 h.toNat := (BitVec.ofNat_toNat 32 h).symm

/-- Settles O21: the registers of 16 bits are zero-extended, the others read whole. -/
theorem readConfigurationRegisters : Obligations.ReadConfigurationRegisters := by
  refine ⟨fun s => ?_, fun t => ?_⟩
  · simp only [← zext32_eq_ofNat]
    and_intros <;> rfl
  · and_intros <;> exact fun h => by rw [eq_effect_of_exec h]; rfl

/-- Settles O22: a counter reads whole, and the rules' examples count one event from reset. -/
theorem readCountersAndId : Obligations.ReadCountersAndId := by
  refine ⟨fun s => ?_, fun p t => ?_⟩
  · and_intros <;> rfl
  · and_intros <;> exact fun h => by rw [eq_effect_of_exec h]; rfl

/-- Settles O23: the reserved addresses decode to the reserved operations, the five others by their row of the map. -/
theorem readOnlyAndReservedRegisters : Obligations.ReadOnlyAndReservedRegisters := by
  intro s a w
  refine ⟨rfl, rfl, rfl, rfl, rfl, rfl, rfl, fun hro => ?_, fun hreserved => ?_⟩
  · simp only [List.mem_cons, List.not_mem_nil, or_false] at hro
    rcases hro with rfl | rfl | rfl | rfl | rfl <;> rfl
  · have ha := (reservedAddr_eq_true_iff a).mpr hreserved
    rw [decodeBus_rdRsvd ha, decodeBus_wrRsvd ha]
    exact ⟨rfl, rfl⟩

/-! ## Status and configuration writes (R181 to R198) -/

/-- Settles O27, by bit 4 of the written word. -/
theorem writeStatus : Obligations.WriteStatus := by
  intro s w
  simp only [exec, execWrStatus]
  cases w.getLsbD 4 <;> simp

theorem configWrite_of_en {s : State} (hen : s.en = true) (upd : ConfigRegs → ConfigRegs) :
    configWrite upd s = { s with werr := true } := by simp [configWrite, hen]

theorem configWrite_of_not_en {s : State} (hen : s.en = false) (upd : ConfigRegs → ConfigRegs) :
    configWrite upd s = { s with cfg := upd s.cfg } := by simp [configWrite, hen]

/-- A configuration write while EN = 1 sets WERR alone (R30). -/
theorem exec_configWrite_of_en {i : Instr} (hi : i.isConfigWrite = true) {s : State} (hen : s.en = true) :
    exec i s = .next { s with werr := true } := by
  obtain ⟨upd, hupd⟩ := effect_of_isConfigWrite hi
  rw [exec_eq_effect, hupd, configWrite_of_en hen]

theorem legalPreLen_toNat (w : Word) : (legalPreLen w).toNat = min (w.extractLsb' 8 5).toNat 16 := by
  simp only [legalPreLen]
  split
  · exact (min_eq_left ‹_›).symm
  · exact (min_eq_right (Nat.le_of_not_ge ‹_›)).symm

/-- Settles O25: the lock of R181, then the three fields of the written word. -/
theorem writeCfg : Obligations.WriteCfg := by
  have hopen (s : State) (w : Word) (hen : s.en = false) : exec (.wrCfg w) s = .next { s with cfg := legalCfg w s.cfg } :=
    congrArg Host.Outcome.next (configWrite_of_not_en hen _)
  refine ⟨fun s w hen => exec_configWrite_of_en rfl hen, fun s w hen => ⟨legalCfg w s.cfg, hopen s w hen, ?_⟩,
    fun s hen => hopen s _ hen⟩
  exact ⟨rfl, CheckMode.code_ofCode _, legalPreLen_toNat w, rfl, rfl, rfl, rfl, rfl, rfl⟩

theorem lowHalf_eq_ofNat (w : Word) : lowHalf w = BitVec.ofNat 16 w.toNat := by
  rw [lowHalf, ← BitVec.setWidth_eq_extractLsb' (by decide), BitVec.ofNat_toNat]

theorem legalGapMin_eq_ite (w : Word) :
    legalGapMin w = if w.toNat % 65536 = 0 then 1#16 else BitVec.ofNat 16 w.toNat := by
  have hzero : lowHalf w = 0#16 ↔ w.toNat % 65536 = 0 := by
    rw [lowHalf_eq_ofNat, ← BitVec.toNat_inj]
    rfl
  simp only [legalGapMin, hzero]
  rw [lowHalf_eq_ofNat]

/-- The preamble bits compared are those below PRE_LEN (R38, R198). -/
theorem preambleBit_congr {c d : ConfigRegs} {k : BitVec 5} (hlen : d.preLen = c.preLen) (hk : k.toNat < c.preLen.toNat)
    (hbits : ∀ j : Nat, j < c.preLen.toNat → d.preamble.getLsbD j = c.preamble.getLsbD j) :
    preambleBit d k = preambleBit c k := by
  rw [preambleBit, hlen]
  exact hbits _ (by omega)

/-- Settles O26: the lock of R181, then the value each register stores. -/
theorem writeConfigurationRegisters : Obligations.WriteConfigurationRegisters := by
  refine ⟨fun th x hnan => slice_of_isNaN_thresh hnan x, fun c d k => preambleBit_congr, fun s w => ⟨fun hen i hi => ?_,
    fun hen => ?_⟩⟩
  · refine exec_configWrite_of_en ?_ hen
    simp only [List.mem_cons, List.not_mem_nil, or_false] at hi
    rcases hi with rfl | rfl | rfl | rfl | rfl | rfl <;> rfl
  · rw [← legalGapMin_eq_ite, ← lowHalf_eq_ofNat]
    and_intros <;> exact congrArg Host.Outcome.next (configWrite_of_not_en hen _)

/-! ## WR_CTRL (R175 to R180) -/

/-- A request equal to EN changes nothing (R178). -/
theorem writeEn_self (s : State) : writeEn s.en s = s := by
  unfold writeEn
  cases s.en <;> rfl

theorem writeEn_disable {s : State} (hen : s.en = true) : writeEn false s = disable s := by simp [writeEn, hen]

/-- An enable ends with EN = 1 or with the record of its refusal (R176). -/
theorem writeEn_enable {s : State} (hen : s.en = false) : writeEn true s =
    { s with
      en := tolLegal s.cfg.tol
      cfgErr := !tolLegal s.cfg.tol
      lastEvt := if tolLegal s.cfg.tol then s.lastEvt else .configError } := by
  have hcheck : writeEn true s = enableCheck s := by simp [writeEn, hen]
  rw [hcheck, enableCheck]
  cases tolLegal s.cfg.tol <;> simp [hen]

theorem onlyIf_decoderReset (c : Bool) (s : State) :
    onlyIf c decoderReset s = { s with dec := if c then .reset else s.dec } := by
  cases c <;> rfl

theorem onlyIf_clearCounters (c : Bool) (s : State) :
    onlyIf c clearCounters s = { s with cnt := if c then .zero else s.cnt } := by
  cases c <;> rfl

/-- WR_CTRL is its EN part, then the soft reset, then the counter clear (R175). -/
theorem effect_wrCtrl (w : Word) (s : State) : effect (.wrCtrl w) s =
    onlyIf (w.getLsbD 2) clearCounters (onlyIf (w.getLsbD 1) decoderReset (writeEn (w.getLsbD 0) s)) := rfl

/-- A WR_CTRL that keeps EN (R178). -/
theorem effect_wrCtrl_of_same {w : Word} {s : State} (hreq : w.getLsbD 0 = s.en) : effect (.wrCtrl w) s =
    { s with
      dec := if w.getLsbD 1 then .reset else s.dec
      cnt := if w.getLsbD 2 then .zero else s.cnt } := by
  rw [effect_wrCtrl, hreq, writeEn_self, onlyIf_decoderReset, onlyIf_clearCounters]

/-- A WR_CTRL that disables resets the decoder, whether or not it asks for the soft reset (R177). -/
theorem effect_wrCtrl_of_disable {w : Word} {s : State} (hreq : w.getLsbD 0 = false) (hen : s.en = true) :
    effect (.wrCtrl w) s =
      { s with en := false, dec := .reset, cnt := if w.getLsbD 2 then .zero else s.cnt } := by
  rw [effect_wrCtrl, hreq, writeEn_disable hen, onlyIf_decoderReset, disable_dec, ite_self, onlyIf_clearCounters]
  rfl

/-- A WR_CTRL that asks for an enable (R176). -/
theorem effect_wrCtrl_of_enable {w : Word} {s : State} (hreq : w.getLsbD 0 = true) (hen : s.en = false) :
    effect (.wrCtrl w) s =
      { s with
        en := tolLegal s.cfg.tol
        cfgErr := !tolLegal s.cfg.tol
        lastEvt := if tolLegal s.cfg.tol then s.lastEvt else .configError
        dec := if w.getLsbD 1 then .reset else s.dec
        cnt := if w.getLsbD 2 then .zero else s.cnt } := by
  rw [effect_wrCtrl, hreq, writeEn_enable hen, onlyIf_decoderReset, onlyIf_clearCounters]

/-- Settles O28, by the cases of the EN part: no change, a disable, an enable. -/
theorem writeControl : Obligations.WriteControl := by
  intro s w
  refine ⟨_, exec_eq_effect _ s, ?_⟩
  cases hreq : w.getLsbD 0 <;> cases hen : s.en
  case false.false | true.true =>
    rw [effect_wrCtrl_of_same (hreq.trans hen.symm)]
    simp [hen, Counters.zero]
  case false.true =>
    rw [effect_wrCtrl_of_disable hreq hen]
    simp [Counters.zero]
  case true.false =>
    rw [effect_wrCtrl_of_enable hreq hen]
    simp [tolLegal, Counters.zero, -not_and]

/-! ## The order of a cycle (R200) -/

/-- Settles O8: the cycle is the stages of R200, and none before the write touches EN or the configuration. -/
theorem cycleOrder : Obligations.CycleOrder := by
  refine ⟨fun s p hrst => ⟨stateOutputs s, ?_⟩, fun s p hrst => ?_, fun s hemit => by simp [sReady, hemit],
    fun s x last => ?_⟩
  · rw [cycle_eq, cycleNext, if_pos hrst]
    rfl
  · rw [cycle_eq, cycleNext, if_neg (by simp [hrst])]
    simp only [exec_eq_effect, ← apply_ite Host.Outcome.next, andThen_next, onlyIf, Bool.and_eq_true, Bool.not_eq_true,
      Bool.not_eq_true', beq_iff_eq]
  · obtain ⟨q, b, hbeat⟩ := beatStep_eq s
    have hretry := emitRetry_sameControl s
    have hsample := sampleStep_sameControl x last s
    exact ⟨by rw [hbeat], by rw [hbeat], hretry.en, hretry.cfg, hsample.en, hsample.cfg⟩

theorem runStage_singleton (k : Stage) (i : Instr) (s : State) :
    runStage k [i] s = if stageOf i = k then exec i s else .next s := by
  unfold runStage
  by_cases h : stageOf i = k <;> simp [h, exec_eq_effect]

/-- Settles O6: of the stages of R200 the operation's own runs it, and the others but the EMIT retry do nothing. -/
theorem stepRunsDecodedOperation : Obligations.StepRunsDecodedOperation := by
  intro s d rest i hhost hops
  have hdrive : nextDrive s = d := by simp [nextDrive, hhost]
  obtain ⟨h, n, htake⟩ := takeDrive_eq s
  have hretry : retryStage (takeDrive s) = retryStage s := by rw [htake]; rfl
  have hops' : cycleOps (takeDrive s) d.inputs = .ok [i] := by rw [htake]; exact hops
  have hrun : step s = runOps [i] (takeDrive s) := by
    rw [step, clockStep, hdrive, cycle, hops']
  rw [hrun, runOps]
  cases hstage : stageOf i <;> simp [runStage_singleton, hstage, hretry, exec_eq_effect]

/-! ## WR_CTRL at the end of its cycle (R177, R179, R180) -/

/-- A cycle with a register write is the cycle without it, then the write (R200). -/
theorem cycleNext_write {p : Inputs} (hrst : p.rst = false) (hsel : p.regSel = true) (hwr : p.regWr = true) (s : State) :
    cycleNext p s =
      effect (decodeBus (busOp true p.regAddr) p.regWdata) (cycleNext { p with regSel := false } s) := by
  simp [cycleNext, hrst, hsel, hwr]

/-- Before its register write a cycle without `rst` keeps EN. -/
theorem decoderStages_outputStage_en (p : Inputs) (o : Outputs) (s : State) :
    (decoderStages p s (outputStage p s (setOut o s))).en = s.en := by
  obtain ⟨q, b, hout⟩ := outputStage_eq p s (setOut o s)
  rw [(decoderStages_sameControl _ _ _).en, hout]
  rfl

theorem cycleNext_en_of_no_write {p : Inputs} (hrst : p.rst = false) (hwrite : p.regSel = false ∨ p.regWr = false)
    (s : State) : (cycleNext p s).en = s.en := by
  obtain ⟨o, hstages⟩ := cycleNext_eq_stages hrst s
  rw [hstages, writeStage_of_no_write hwrite, decoderStages_outputStage_en]

/-- Settles O29: the WR_CTRL acts on the state that the cycle without it ends in, whose EN is that of the start. -/
theorem controlWriteWinsTheCycle : Obligations.ControlWriteWinsTheCycle := by
  intro s t u p hrst hsel hwr haddr ht hu
  rw [cycle_eq, Host.Outcome.next.injEq] at ht hu
  have hen : u.en = s.en := hu ▸ cycleNext_en_of_no_write (p := { p with regSel := false }) hrst (.inl rfl) s
  have hctrl : t = effect (.wrCtrl p.regWdata) u := by
    rw [← ht, cycleNext_write hrst hsel hwr, hu, haddr, decodeBus_wrCtrl]
  refine ⟨fun hon hreq hkeep => ?_, fun hreq => ?_, fun hclear => ?_⟩
  · have hoff : t = { u with en := false, dec := Decoder.reset } := by
      rw [hctrl, effect_wrCtrl_of_disable hreq (hen.trans hon), hkeep]
      rfl
    refine ⟨hoff, ?_⟩
    rw [hoff, driveOutputs_out, stateOutputs_sReady]
    rfl
  · rw [hctrl, effect_wrCtrl_of_same (hreq.trans hen.symm)]
    rfl
  · rw [hctrl, effect_wrCtrl, hclear]
    rfl

/-! ## The decoder while CTRL.EN = 0 (R199) -/

/-- The EN part of a WR_CTRL keeps the rule of R199: it enables, it disables with a reset, or it touches neither. -/
theorem writeEn_disabled_dec {s : State} (hdec : s.en = false → s.dec = .reset) (req : Bool) :
    (writeEn req s).en = false → (writeEn req s).dec = .reset := by
  unfold writeEn enableCheck
  split
  · split
    · exact nofun
    · exact hdec
  · split
    · exact fun _ => rfl
    · exact hdec

theorem effect_configWrite_en {i : Instr} (hi : i.isConfigWrite = true) (s : State) : (effect i s).en = s.en := by
  obtain ⟨upd, hupd⟩ := effect_of_isConfigWrite hi
  rcases configWrite_eq upd s with ⟨-, hwrite⟩ | ⟨-, hwrite⟩ <;> rw [hupd, hwrite]

/-- Of the register writes only WR_CTRL touches EN and the decoder. -/
theorem effect_write_en_dec {i : Instr} (hi : stageOf i = .write) (hctrl : ∀ w, i ≠ .wrCtrl w) (s : State) :
    (effect i s).en = s.en ∧ (effect i s).dec = s.dec := by
  cases i with
  | wrCtrl w => exact absurd rfl (hctrl w)
  | wrStatus w =>
    simp only [effect, exec, execWrStatus]
    split <;> exact ⟨rfl, rfl⟩
  | wrCfg | wrTol | wrShortNom | wrLongNom | wrGapMin | wrThresh | wrPreamble =>
    exact ⟨effect_configWrite_en rfl s, effect_configWrite_dec rfl s⟩
  | wrRoPktCnt | wrRoBadCnt | wrRoSynclossCnt | wrRoDiscardCnt | wrRoId | wrRsvd => exact ⟨rfl, rfl⟩
  | _ => cases hi

theorem effect_write_disabled_dec {i : Instr} (hi : stageOf i = .write) {s : State} (hdec : s.en = false → s.dec = .reset) :
    (effect i s).en = false → (effect i s).dec = .reset := by
  by_cases hctrl : ∃ w, i = .wrCtrl w
  · obtain ⟨w, rfl⟩ := hctrl
    rw [effect_wrCtrl, onlyIf_decoderReset, onlyIf_clearCounters]
    intro hen
    exact ite_eq_left_iff.mpr fun _ => writeEn_disabled_dec hdec _ hen
  · obtain ⟨hen', hdec'⟩ := effect_write_en_dec hi (not_exists.mp hctrl) s
    rwa [hen', hdec']

/-- With EN = 0 and the decoder at reset no sample is accepted and nothing is retried (R72, R162). -/
theorem decoderStages_disabled (p : Inputs) {s0 : State} (hen : s0.en = false) (hdec : s0.dec = .reset) (s : State) :
    decoderStages p s0 s = s :=
  decoderStages_of_no_sample (by simp [sReady, hen]) (.inl (by simp [hdec, Decoder.reset]))

theorem cycleNext_disabled_dec (p : Inputs) {s : State} (hdec : s.en = false → s.dec = .reset) :
    (cycleNext p s).en = false → (cycleNext p s).dec = .reset := by
  by_cases hrst : p.rst = true
  · rw [cycleNext, if_pos hrst]
    exact fun _ => rfl
  · obtain ⟨o, hstages⟩ := cycleNext_eq_stages (Bool.eq_false_of_not_eq_true hrst) s
    obtain ⟨q, b, hout⟩ := outputStage_eq p s (setOut o s)
    rw [hstages]
    refine onlyIf_of (P := fun t => t.en = false → t.dec = .reset) _ (effect_write_disabled_dec (stageOf_busWrite _ _) ?_) ?_
    all_goals
      rw [decoderStages_outputStage_en]
      intro hen
      rw [decoderStages_disabled p hen (hdec hen), hout]
      exact hdec hen

/-- Settles O18: a disabled decoder at reset hears no sample, and the write that disables resets it. -/
theorem disabledDecoderStaysReset : Obligations.DisabledDecoderStaysReset := by
  refine ⟨fun _ => rfl, fun s t hdec hstep => ?_⟩
  obtain ⟨h, d, htake⟩ := takeDrive_eq s
  rw [step_eq, Host.Outcome.next.injEq, htake] at hstep
  exact hstep ▸ cycleNext_disabled_dec _ (s := { s with host := h, drawn := d }) hdec

end Sys2Proof.Machine
end

section
/-! Proofs about events (60_exceptions.md): a cycle records at most one, with the counters of its code, and EMIT ends with the
last beat of the head packet. -/

namespace Sys2Proof.Machine

/-! ## What records an event (R132, R160, R220) -/

/-- From `s` to `t` no event has been recorded and no counter has moved. -/
def SameEvents (s t : State) : Prop := t.cnt = s.cnt ∧ t.lastEvt = s.lastEvt

theorem SameEvents.eventDelta {s t : State} (h : SameEvents s t) : EventDelta s t := .inl h

theorem EventDelta.after {s t u : State} (k : EventDelta t u) (h : SameEvents s t) : EventDelta s u := by
  obtain ⟨hcnt, hevt⟩ := h
  rwa [EventDelta, hcnt, hevt] at k

theorem EventDelta.before {s t u : State} (h : EventDelta s t) (k : SameEvents t u) : EventDelta s u := by
  obtain ⟨hcnt, hevt⟩ := k
  rwa [EventDelta, hcnt, hevt]

theorem isSyncLoss_iff (e : Event) : isSyncLoss e = true ↔ e = .syncLossHigh ∨ e = .syncLossLow := by
  simp [isSyncLoss]

/-- An abort discards one frame (R132). -/
theorem abort_eventDelta {e : Event} (he : e ∈ discardEvents) (s : State) : EventDelta s (abort e s) := by
  have hloss : (abort e s).cnt.syncloss =
      if e = .syncLossHigh ∨ e = .syncLossLow then s.cnt.syncloss + 1#32 else s.cnt.syncloss :=
    if_congr (isSyncLoss_iff e) rfl rfl
  refine .inr (.inl ⟨he, ?_⟩)
  rw [abort_lastEvt, ← hloss]
  rfl

/-- A push counts one packet (R160). -/
theorem push_eventDelta (p : Packet) (s : State) : EventDelta s (push p s) := by
  refine .inr (.inr ?_)
  cases hcheck : p.validCheck <;> simp [hcheck]

/-! ## The decoder records at most one event in a cycle (R224) -/

/-- From `s` to `t` at most one event has been recorded, and with it the frame was closed. -/
def ClosesWithEvent (s t : State) : Prop := SameEvents s t ∨ (EventDelta s t ∧ ¬ t.dec.phase.isOpen = true)

/-- What the end of a frame does: at most one event, none unless a frame is open, and no frame is open after it. -/
structure EndsFrame (s t : State) : Prop where
  closed : ¬ t.dec.phase.isOpen = true
  delta : EventDelta s t
  idle : ¬ s.dec.phase.isOpen = true → SameEvents s t

theorem EndsFrame.of_open {s t : State} (hopen : s.dec.phase.isOpen = true) (hclosed : ¬ t.dec.phase.isOpen = true)
    (hdelta : EventDelta s t) : EndsFrame s t := ⟨hclosed, hdelta, fun hnot => absurd hopen hnot⟩

theorem EndsFrame.of_closed {s t : State} (hclosed : ¬ t.dec.phase.isOpen = true) (hsame : SameEvents s t) :
    EndsFrame s t := ⟨hclosed, hsame.eventDelta, fun _ => hsame⟩

namespace ClosesWithEvent

variable {s t u : State}

theorem eventDelta (h : ClosesWithEvent s t) : EventDelta s t := h.elim SameEvents.eventDelta And.left

/-- After an event no frame is open, so the end of a frame records no second one. -/
theorem endsFrame (h : ClosesWithEvent s t) (k : EndsFrame t u) : ClosesWithEvent s u := by
  obtain hsame | ⟨hdelta, hclosed⟩ := h
  · exact .inr ⟨k.delta.after hsame, k.closed⟩
  · exact .inr ⟨hdelta.before (k.idle hclosed), k.closed⟩

theorem onlyIf {f : State → State} (h : ClosesWithEvent s t) (k : EndsFrame t (f t)) (c : Bool) :
    ClosesWithEvent s (onlyIf c f t) :=
  onlyIf_of c (h.endsFrame k) h

end ClosesWithEvent

theorem PushesBit.closesWithEvent {b : Bool} {s t : State} (hpush : PushesBit b s t) : ClosesWithEvent s t := by
  cases hpush with
  | agrees | agreesLast | appends | fills => exact .inl ⟨rfl, rfl⟩
  | differs => exact .inr ⟨abort_eventDelta (by decide) (countBit s), by simp [Phase.isOpen]⟩
  | overflows => exact .inr ⟨abort_eventDelta (by decide) (appendBit b s), by simp [Phase.isOpen]⟩

theorem EndsInterval.closesWithEvent {s t : State} (hends : EndsInterval s t) : ClosesWithEvent s t := by
  cases hends with
  | nothing | opens => exact .inl ⟨rfl, rfl⟩
  | losesLow | losesHigh => exact .inr ⟨abort_eventDelta (by decide) s, by simp [Phase.isOpen]⟩
  | pushes _ _ hpush => exact hpush.closesWithEvent

theorem ReachesGap.endsFrame {s t : State} (hgap : ReachesGap s t) : EndsFrame s t := by
  cases hgap with
  | nothing hclosed => exact .of_closed hclosed ⟨rfl, rfl⟩
  | discards hopen => exact .of_open hopen (by simp [Phase.isOpen]) (abort_eventDelta (by decide) s)
  | queues hphase => exact .of_open (by rw [hphase]; rfl) (by simp [Phase.isOpen]) (push_eventDelta (framePacket s) s)
  | holds => exact .of_closed (by simp [Phase.isOpen]) ⟨rfl, rfl⟩

theorem streamEnd_endsFrame (s : State) : EndsFrame s (streamEnd s) := by
  have hclosed := streamEnd_not_open s
  by_cases hopen : s.dec.phase.isOpen = true
  · rw [streamEnd_of_open hopen] at hclosed ⊢
    exact .of_open hopen hclosed (abort_eventDelta (e := .incompleteStreamEnd) (by decide) s)
  · rw [streamEnd_of_not_open hopen] at hclosed ⊢
    exact .of_closed hclosed ⟨rfl, rfl⟩

/-- A sample records at most one event: that of its finished interval, of its gap, or of the stream end (R108). -/
theorem sampleStep_eventDelta (x : Word) (last : Bool) (s : State) : EventDelta s (sampleStep x last s) := by
  have hends := endsInterval_onlyIf_edgeStep (slice s.cfg.thresh x != s.dec.lvl) s
  have hline (l : Bool) (r : Half) :
      ClosesWithEvent s (setLine l r (onlyIf (slice s.cfg.thresh x != s.dec.lvl) edgeStep s)) := hends.closesWithEvent
  exact (((hline _ _).onlyIf (gapReached_reachesGap _).endsFrame _).onlyIf (streamEnd_endsFrame _) last).eventDelta

theorem emitRetry_eventDelta (s : State) : EventDelta s (emitRetry s) := by
  rcases emitRetry_cases s with ⟨p, -, -, hpush⟩ | ⟨-, hsame⟩
  · rw [hpush]
    exact push_eventDelta p _
  · rw [hsame]
    exact .inl ⟨rfl, rfl⟩

/-- A cycle has an EMIT retry or a sample, never both (R72, R162). -/
theorem decoderStages_eventDelta (p : Inputs) (s0 s : State) : EventDelta s (decoderStages p s0 s) := by
  by_cases hemit : s0.dec.phase = .emit
  · rw [decoderStages_of_emit p hemit]
    exact emitRetry_eventDelta s
  · rw [decoderStages_of_not_emit p hemit]
    exact onlyIf_of (P := EventDelta s) _ (sampleStep_eventDelta _ _ s) (.inl ⟨rfl, rfl⟩)

theorem outputStage_sameEvents (p : Inputs) (s0 s : State) : SameEvents s (outputStage p s0 s) := by
  obtain ⟨q, b, hout⟩ := outputStage_eq p s0 s
  rw [hout]
  exact ⟨rfl, rfl⟩

/-! ## Register writes and the event record (R225, R229) -/

theorem effect_configWrite_lastEvt {i : Instr} (hi : i.isConfigWrite = true) (s : State) :
    (effect i s).lastEvt = s.lastEvt := by
  obtain ⟨upd, hupd⟩ := effect_of_isConfigWrite hi
  rcases configWrite_eq upd s with ⟨-, hwrite⟩ | ⟨-, hwrite⟩ <;> rw [hupd, hwrite]

/-- Of the register writes only WR_CTRL touches the event record. -/
theorem effect_write_lastEvt {i : Instr} (hi : stageOf i = .write) (hctrl : ∀ w, i ≠ .wrCtrl w) (s : State) :
    (effect i s).lastEvt = s.lastEvt := by
  cases i with
  | wrCtrl w => exact absurd rfl (hctrl w)
  | wrStatus w =>
    simp only [effect, exec, execWrStatus]
    split <;> rfl
  | wrCfg | wrTol | wrShortNom | wrLongNom | wrGapMin | wrThresh | wrPreamble => exact effect_configWrite_lastEvt rfl s
  | wrRoPktCnt | wrRoBadCnt | wrRoSynclossCnt | wrRoDiscardCnt | wrRoId | wrRsvd => rfl
  | _ => cases hi

theorem writeStage_sameEvents {p : Inputs} (hctrl : ¬(p.regSel = true ∧ p.regWr = true ∧ p.regAddr = 0x00#8)) (s : State) :
    SameEvents s (writeStage p s) := by
  refine ⟨writeStage_cnt hctrl s, ?_⟩
  unfold writeStage
  cases hbus : p.regSel && p.regWr with
  | true =>
    obtain ⟨hsel, hwr⟩ := Bool.and_eq_true_iff.mp hbus
    have haddr : p.regAddr ≠ 0x00#8 := fun haddr => hctrl ⟨hsel, hwr, haddr⟩
    exact effect_write_lastEvt (stageOf_busWrite _ _) (decodeBus_ne_wrCtrl haddr _) s
  | false => rfl

/-- Of a cycle without `rst` and without a WR_CTRL only the decoder's stages record events. -/
theorem cycleNext_eventDelta {p : Inputs} (hrst : p.rst = false)
    (hctrl : ¬(p.regSel = true ∧ p.regWr = true ∧ p.regAddr = 0x00#8)) (s : State) : EventDelta s (cycleNext p s) := by
  obtain ⟨o, hstages⟩ := cycleNext_eq_stages hrst s
  have hout : SameEvents s (outputStage p s (setOut o s)) := outputStage_sameEvents p s (setOut o s)
  rw [hstages]
  exact ((decoderStages_eventDelta p s _).after hout).before (writeStage_sameEvents hctrl _)

/-! ## WR_CTRL (R175, R176, R180) -/

theorem effect_wrCtrl_cnt (w : Word) (s : State) :
    (effect (.wrCtrl w) s).cnt = if w.getLsbD 2 then .zero else s.cnt := by
  cases hreq : w.getLsbD 0 <;> cases hen : s.en
  case false.false | true.true => rw [effect_wrCtrl_of_same (hreq.trans hen.symm)]
  case false.true => rw [effect_wrCtrl_of_disable hreq hen]
  case true.false => rw [effect_wrCtrl_of_enable hreq hen]

/-- A WR_CTRL records an event exactly if it asks for an enable that is refused (R176). -/
theorem effect_wrCtrl_lastEvt (w : Word) (s : State) : (effect (.wrCtrl w) s).lastEvt =
    if w.getLsbD 0 = true ∧ s.en = false ∧ ¬ tolLegal s.cfg.tol = true then .configError else s.lastEvt := by
  cases hreq : w.getLsbD 0 <;> cases hen : s.en
  case false.false | true.true =>
    rw [effect_wrCtrl_of_same (hreq.trans hen.symm)]
    simp
  case false.true =>
    rw [effect_wrCtrl_of_disable hreq hen]
    simp
  case true.false =>
    rw [effect_wrCtrl_of_enable hreq hen]
    cases tolLegal s.cfg.tol <;> simp

theorem tolLegal_iff (tol : Word) : tolLegal tol = true ↔ 0 < tol.toNat ∧ tol.toNat < 0x10000 := by
  simp [tolLegal]

/-- With EN = 0 and the decoder at reset a cycle without a register write is its output step alone (R199). -/
theorem cycleNext_disabled {p : Inputs} (hrst : p.rst = false) (hwrite : p.regSel = false ∨ p.regWr = false) {s : State}
    (hen : s.en = false) (hdec : s.dec = .reset) : ∃ o q b, cycleNext p s = { s with out := o, queue := q, beat := b } := by
  obtain ⟨o, hstages⟩ := cycleNext_eq_stages hrst s
  obtain ⟨q, b, hout⟩ := outputStage_eq p s (setOut o s)
  rw [hstages, writeStage_of_no_write hwrite, decoderStages_disabled p hen hdec, hout]
  exact ⟨o, q, b, rfl⟩

/-- Settles O48: of the cycle's stages only one records an event, and a WR_CTRL adds CONFIG_ERROR only to a cycle of a disabled
decoder, which records none. -/
theorem atMostOneEventPerCycle : Obligations.AtMostOneEventPerCycle := by
  refine ⟨fun s t p hrst hctrl ht => ?_, fun s t u p hinv hrst hsel hwr haddr ht hu => ?_⟩
  · rw [cycle_eq, Host.Outcome.next.injEq] at ht
    exact ht ▸ cycleNext_eventDelta hrst hctrl s
  · rw [cycle_eq, Host.Outcome.next.injEq] at ht hu
    have hwrite : t = effect (.wrCtrl p.regWdata) u := by
      rw [← ht, cycleNext_write hrst hsel hwr, hu, haddr, decodeBus_wrCtrl]
    have hdelta := cycleNext_eventDelta (p := { p with regSel := false }) hrst (by simp) s
    refine ⟨hu ▸ hdelta, hwrite ▸ effect_wrCtrl_cnt _ u, ?_⟩
    rw [hwrite, effect_wrCtrl_lastEvt]
    simp only [← tolLegal_iff]
    cases hen : s.en with
    | true =>
      have huen : u.en = true := by
        rw [← hu, cycleNext_en_of_no_write (p := { p with regSel := false }) hrst (.inl rfl), hen]
      simp [huen]
    | false =>
      obtain ⟨o, q, b, hidle⟩ := cycleNext_disabled (p := { p with regSel := false }) hrst (.inl rfl) hen (hinv.disabled hen)
      rw [← hu, hidle]
      simp only [hen]
      split <;> simp

/-! ## EMIT ends with the head packet (R162, R222) -/

/-- In EMIT with the queue full, a `POP` of the head's last beat makes the room for the pending packet. -/
theorem cycleNext_pop_last {s : State} {h q : Packet} {rest : List Packet} (hemit : s.dec.phase = .emit)
    (hpend : s.dec.pend = some q) (hqueue : s.queue = h :: rest) (hroom : rest.length < s.params.outqDepth)
    (hlast : s.beat.toNat = h.data.length) : ∃ o, cycleNext popDrive.inputs s =
      setOut o (push q { s with queue := rest, beat := 0#8, dec := { s.dec with phase := .searching, pend := none } }) := by
  obtain ⟨o, hstages⟩ := cycleNext_of_output (p := popDrive.inputs) rfl s
  have hretry := emitRetry_of_room (s := setOut o { s with queue := rest, beat := 0#8 }) hpend hroom
  refine ⟨o, ?_⟩
  rw [hstages, writeStage_of_no_write (.inl rfl), decoderStages_of_emit _ hemit, show popDrive.inputs.mReady = true from rfl,
    onlyIf_true, beatStep_of_last hqueue hlast, hretry]
  rfl

theorem replicate_succ_append_split {α : Type} {n k : Nat} (hk : k ≤ n) (d : α) (later : List α) :
    List.replicate (n + 1) d ++ later = List.replicate k d ++ (List.replicate (n - k) d ++ d :: later) := by
  rw [← List.append_assoc, ← List.replicate_add, Nat.add_sub_cancel' hk, List.replicate_succ', List.append_assoc]
  rfl

/-- Settles O54: with the queue full the beats before the head's last move the beat index alone, and the last one makes room. -/
theorem emitEndsWhenHeadIsDrained : Obligations.EmitEndsWhenHeadIsDrained := by
  intro n s h q rest later hemit hpend hqueue hfull hbeats hlen hhost
  have hrun (k : Nat) (hk : k ≤ n) : ∃ b o, b.toNat = s.beat.toNat + k ∧
      runCycles k s = .next (atBeat b o (List.replicate (n - k) popDrive ++ popDrive :: later) s) := by
    have hstart : s = atBeat s.beat s.out
        (List.replicate k popDrive ++ (List.replicate (n - k) popDrive ++ popDrive :: later)) s := by
      rw [← replicate_succ_append_split hk, popDrive, ← hhost]
      rfl
    have hpops := runCycles_pops k s.out (List.replicate (n - k) popDrive ++ popDrive :: later) (.inr hfull.ge) hqueue
      (b := s.beat) (by omega) hlen
    rwa [← hstart] at hpops
  constructor
  · intro k hk
    obtain ⟨b, o, hb, hcycles⟩ := hrun k hk
    refine ⟨_, hcycles, rfl, rfl, hb, ?_⟩
    rw [driveOutputs_out, stateOutputs_sReady]
    simp [sReady, atBeat, hemit]
  · obtain ⟨b, o, hb, hcycles⟩ := hrun n le_rfl
    rw [Nat.sub_self, List.replicate_zero, List.nil_append] at hcycles
    have hroom : rest.length < s.params.outqDepth := by
      rw [← hfull, hqueue]
      exact Nat.lt_succ_self _
    obtain ⟨o', hpop⟩ := cycleNext_pop_last (s := atBeat b o later s) hemit hpend hqueue hroom (hb.trans hbeats)
    have hstep : step (atBeat b o (popDrive :: later) s) = .next (cycleNext popDrive.inputs (atBeat b o later s)) := step_eq _
    refine ⟨_, by rw [runCycles_add, hcycles, andThen_next, runCycles, hstep, hpop]; rfl, rfl, rfl, rfl⟩

end Sys2Proof.Machine
end

section
/-! Proofs about reset (70_reset_and_hazards.md): the RESET operation and the cycles with `rst = 1`. -/

namespace Sys2Proof.Machine

theorem exec_reset (s : State) : exec .reset s = .next (resetAll s) := rfl

/-- A cycle with `rst = 1` drives the outputs of its start state and resets; no other input takes part (R200, R250). -/
theorem cycle_of_rst {p : Inputs} (hrst : p.rst = true) (s : State) : cycle p s = .next (resetAll (driveOutputs s)) := by
  rw [cycle_eq, cycleNext, if_pos hrst]

/-- Settles O15: RESET is `resetAll`, and every cycle with `rst = 1` ends in the same function of its start state. -/
theorem resetOperation : Obligations.ResetOperation := by
  constructor
  · intro s
    refine ⟨resetAll s, exec_reset s, ?_⟩
    simp [Decoder.reset, ConfigRegs.reset, Counters.zero]
  · intro s p q hp hq
    rw [cycle_of_rst hp, cycle_of_rst hq]

end Sys2Proof.Machine
end
